-- ==== Sys2Proof/Word.lean ====
section
/-! DEFINITION. The plain word types of the VRM (00_scope.md R8, R9). -/

namespace Sys2Proof

/-- One byte of a bus event or of a virtual register (20_memory.md R66). -/
abbrev Byte := BitVec 8

/-- A command word (30_encoding.md R90). -/
abbrev CmdWord := BitVec 32

/-- A bus word (30_encoding.md R97). -/
abbrev BusWord := BitVec 11

/-- A raw value as wide as the widest register (10_state.md R47). -/
abbrev Raw := BitVec 192

/-- A binary64 value, carried as its 64-bit pattern (00_scope.md R9; log 11). -/
abbrev F64 := BitVec 64

/-- A binary32 bit pattern, `f32bits` (00_scope.md R9). -/
abbrev F32 := BitVec 32

end Sys2Proof
end

