-- ==== Sys2Proof/Config.lean ====
section
/-! DEFINITION. What is fixed for one VRM: the parameters of 00_scope.md R7, the physical registers (10_state.md R33),
the register map with its adapters (R34–R42, 43_adapters.md R171, R173) and the free values of the sensor and of the
time input, which have no body. -/

namespace Sys2Proof
namespace Config

/-- `DEVICE_ADDR` (00_scope.md R7): the one device of every bus event (20_memory.md R61). -/
def deviceAddr : Byte := 0x49

/-- `STATUS_WBUSY_BIT` (R7). -/
def statusWBusyBit : Nat := 1

/-- `STATUS_RREADY_BIT` (R7). -/
def statusRReadyBit : Nat := 0

/-- `PTR_WRITE_FLAG` (R7). -/
def ptrWriteFlag : Byte := 0x80

/-- `MAX_LEN` (R7): the most bytes one virtual access moves. -/
def maxLen : Nat := 24

/-- The end of the admitted virtual addresses (R7, `VADDR_WIDTH`; 41_channel.md R126). -/
def vaddrEnd : Nat := 0x80

/-- `SCALE_K` (R7): 2.8 as binary64. -/
def scaleK : F64 := 0x4006666666666666

/-- `SETTLE_TIME` in seconds (R7). -/
def settleTime : Nat := 2

/-- The three physical registers of the sensor (10_state.md R33). -/
inductive Preg where
  | status
  | writePtr
  | readData
  deriving DecidableEq, Repr

/-- The address of a physical register (10_state.md R33), two bits as in a bus word (30_encoding.md R97). -/
def Preg.addr : Preg → BitVec 2
  | .status => 0
  | .writePtr => 1
  | .readData => 2

/-- The direction of a bus event (10_state.md R31). -/
inductive Dir where
  | read
  | write
  deriving DecidableEq, Repr

/-- A bus event as TRACE records it (10_state.md R31): for a read, `byte` is what the sensor returned. -/
structure BusEvent where
  dir : Dir
  preg : Preg
  byte : Byte
  deriving DecidableEq, Repr

/-- The adapter kinds, a closed set (43_adapters.md R171). A lookup table is its keys with their codes. -/
inductive Adapter where
  | ident
  | lut (table : List (F64 × Nat))
  | scale (k : F64)
  | f32
  | fwver
  deriving DecidableEq, Repr

/-- A bit-field: its mask within the register and its adapter (10_state.md R34). -/
structure Field where
  mask : Nat
  adapter : Adapter
  deriving DecidableEq, Repr

/-- The access mode of a register (10_state.md R34). -/
inductive Access where
  | ro
  | rw
  deriving DecidableEq, Repr

/-- A virtual register: address, width in bits, access mode, fields in index order (10_state.md R34). -/
structure Register where
  addr : Byte
  width : Nat
  access : Access
  fields : List Field
  deriving DecidableEq, Repr

/-- The byte count of a register, its width divided by 8 (20_memory.md R66). -/
def Register.bytes (r : Register) : Nat := r.width / 8

/-- Lookup table GAIN (43_adapters.md R173): 1.0, 3.7, 16.0, 64.0. -/
def gainTable : List (F64 × Nat) :=
  [(0x3FF0000000000000, 0), (0x400D99999999999A, 1), (0x4030000000000000, 2), (0x4050000000000000, 3)]

/-- Lookup table ILLUM (43_adapters.md R173): 12.5, 25.0, 50.0, 100.0. -/
def illumTable : List (F64 × Nat) :=
  [(0x4029000000000000, 0), (0x4039000000000000, 1), (0x4049000000000000, 2), (0x4059000000000000, 3)]

/-- Lookup table INDIC (43_adapters.md R173): 1.0, 2.0, 4.0, 8.0. -/
def indicTable : List (F64 × Nat) :=
  [(0x3FF0000000000000, 0), (0x4000000000000000, 1), (0x4010000000000000, 2), (0x4020000000000000, 3)]

/-- The parameter `FIELD_MASKS` (00_scope.md R7): one mask for each field of MAP, with the defaults of 10_state.md
R36–R42. PRESUMED by the spec itself for CONTROL and LED_CONTROL (R37, R40; log 12). -/
structure FieldMasks where
  hwType : Nat := 0xFF000000
  hwVersion : Nat := 0x00FF0000
  fwVersion : Nat := 0x0000FFFF
  reset : Nat := 0x80
  interrupt : Nat := 0x40
  gainX : Nat := 0x30
  measurementMode : Nat := 0x0C
  dataReady : Nat := 0x02
  ms : Nat := 0xFF
  degreesC : Nat := 0xFF
  illuminationCurrentLimitMa : Nat := 0x30
  illuminationEnable : Nat := 0x08
  indicatorCurrentLimitMa : Nat := 0x06
  indicatorEnable : Nat := 0x01
  dataV : Nat := 0xFFFF <<< 80
  dataB : Nat := 0xFFFF <<< 64
  dataG : Nat := 0xFFFF <<< 48
  dataY : Nat := 0xFFFF <<< 32
  dataO : Nat := 0xFFFF <<< 16
  dataR : Nat := 0xFFFF
  calV : Nat := 0xFFFFFFFF <<< 160
  calB : Nat := 0xFFFFFFFF <<< 128
  calG : Nat := 0xFFFFFFFF <<< 96
  calY : Nat := 0xFFFFFFFF <<< 64
  calO : Nat := 0xFFFFFFFF <<< 32
  calR : Nat := 0xFFFFFFFF
  deriving DecidableEq, Repr

/-- VERSION, index 0 (10_state.md R36). -/
def versionReg (m : FieldMasks) : Register :=
  ⟨0x00, 32, .ro, [⟨m.hwType, .ident⟩, ⟨m.hwVersion, .ident⟩, ⟨m.fwVersion, .fwver⟩]⟩

/-- CONTROL, index 1 (10_state.md R37). -/
def controlReg (m : FieldMasks) : Register :=
  ⟨0x04, 8, .rw, [⟨m.reset, .ident⟩, ⟨m.interrupt, .ident⟩, ⟨m.gainX, .lut gainTable⟩,
    ⟨m.measurementMode, .ident⟩, ⟨m.dataReady, .ident⟩]⟩

/-- INTEGRATION_TIME, index 2 (10_state.md R38). -/
def integrationTimeReg (m : FieldMasks) : Register :=
  ⟨0x05, 8, .rw, [⟨m.ms, .scale scaleK⟩]⟩

/-- TEMPERATURE, index 3 (10_state.md R39). -/
def temperatureReg (m : FieldMasks) : Register :=
  ⟨0x06, 8, .ro, [⟨m.degreesC, .ident⟩]⟩

/-- LED_CONTROL, index 4 (10_state.md R40). -/
def ledControlReg (m : FieldMasks) : Register :=
  ⟨0x07, 8, .rw, [⟨m.illuminationCurrentLimitMa, .lut illumTable⟩, ⟨m.illuminationEnable, .ident⟩,
    ⟨m.indicatorCurrentLimitMa, .lut indicTable⟩, ⟨m.indicatorEnable, .ident⟩]⟩

/-- DATA, index 5 (10_state.md R41). -/
def dataReg (m : FieldMasks) : Register :=
  ⟨0x08, 96, .ro, [⟨m.dataV, .ident⟩, ⟨m.dataB, .ident⟩, ⟨m.dataG, .ident⟩, ⟨m.dataY, .ident⟩,
    ⟨m.dataO, .ident⟩, ⟨m.dataR, .ident⟩]⟩

/-- CALIBRATED_DATA, index 6 (10_state.md R42). -/
def calibratedDataReg (m : FieldMasks) : Register :=
  ⟨0x14, 192, .ro, [⟨m.calV, .f32⟩, ⟨m.calB, .f32⟩, ⟨m.calG, .f32⟩, ⟨m.calY, .f32⟩, ⟨m.calO, .f32⟩,
    ⟨m.calR, .f32⟩]⟩

/-- MAP (10_state.md R35): exactly seven registers, in index order. It is configuration: no command changes it (R46). -/
def map (m : FieldMasks) : List Register :=
  [versionReg m, controlReg m, integrationTimeReg m, temperatureReg m, ledControlReg m, dataReg m,
    calibratedDataReg m]

/-- The field count of each register (42_codec.md R154). -/
def fieldCounts : List Nat := [3, 5, 1, 1, 4, 6, 6]

/-- The parameter `POLL_LIMIT` (00_scope.md R7). The spec admits a bound L ≥ 1; a bound of 0 acts as 1 (log 7). -/
inductive PollLimit where
  | unbounded
  | bound (l : Nat)
  deriving DecidableEq, Repr

/-- The parameters a model takes (00_scope.md R7), with the spec's defaults. -/
structure Params where
  pollLimit : PollLimit := .unbounded
  masks : FieldMasks := {}
  deriving DecidableEq, Repr

/-- FREE VALUE, `DEVICE_INIT` and the oracle (20_memory.md R60, 10_state.md R45): the byte the sensor returns to its
n-th answer, after the history of bus events, for a read of the given physical register (log 2). -/
opaque sensorByte : Nat → List BusEvent → Preg → Byte

/-- FREE VALUE, `TIME` (44_register_ops.md R221): a proposal for the n-th reading of the time input; the machine takes
it only if it does not run backwards (log 3). -/
opaque timeDraw : Nat → F64

end Config
end Sys2Proof
end

