-- ==== Sys2Proof/Syntax.lean ====
section
/-! DEFINITION. Semantic values (00_scope.md R11), the instructions (one constructor for each row of the opcode table,
30_encoding.md R91, R97) and a command as it is submitted (R90). -/

namespace Sys2Proof

/-- A semantic value (00_scope.md R11). `undef` is the value of a result latch nothing has written. -/
inductive Sem where
  | int (n : Int)
  | f64 (x : F64)
  | f32 (p : F32)
  | ver (maj : BitVec 4) (min : BitVec 6) (sub : BitVec 6)
  | undef
  deriving DecidableEq, Repr

/-- The instructions: the 13 commands (30_encoding.md R91) with the fields their words carry, and the five kinds of bus
event (R97) with the bits of the bus word that the kind leaves open. The byte of a read event is the sensor's answer. -/
inductive Instr where
  | nop
  | vread (len : BitVec 5) (addr : Byte)
  | vwrite (len : BitVec 5) (addr : Byte)
  | rdreg (reg : BitVec 3)
  | wrreg (reg : BitVec 3)
  | fdec (reg fld : BitVec 3)
  | fdecr (reg fld : BitVec 3)
  | fenc (reg fld : BitVec 3)
  | fins (reg fld : BitVec 3)
  | rdfld (reg fld : BitVec 3)
  | wrfld (reg fld : BitVec 3)
  | waitrdy
  | sreset
  | busRdStatus (status : Byte)
  | busSelW (addr : BitVec 7)
  | busSelR (addr : BitVec 7)
  | busWrData (data : Byte)
  | busRdData (data : Byte)
  deriving DecidableEq, Repr

/-- A command as the client submits it: the command word with its raw and its semantic operand (10_state.md R22,
30_encoding.md R90). -/
structure Command where
  cmd : CmdWord
  opd : Raw
  opv : Sem
  deriving DecidableEq, Repr

end Sys2Proof
end

