-- ==== Sys2Proof/WellFormed.lean ====
section
/-! DEFINITION. When the operands of an instruction are in range for the hardware. The format's ranges hold by the
operands' types; a field in range for the format but not for the hardware passes decoding and faults in execution
(30_encoding.md R92). -/

namespace Sys2Proof

/-- The range check of a channel access (41_channel.md R126). -/
def inRange (len : BitVec 5) (addr : Byte) : Bool :=
  decide (1 ≤ len.toNat) && decide (len.toNat ≤ Config.maxLen) &&
    decide (addr.toNat + len.toNat ≤ Config.vaddrEnd)

/-- The register exists: REG < 7 (42_codec.md R154). -/
def regExists (reg : BitVec 3) : Bool := decide (reg.toNat < 7)

/-- The register exists and has that field (42_codec.md R154). -/
def fieldExists (reg fld : BitVec 3) : Bool :=
  match Config.fieldCounts[reg.toNat]? with
  | some n => decide (fld.toNat < n)
  | none => false

/-- The operands of an instruction are in range for the hardware (30_encoding.md R92). A bus event has no operand out of
range. -/
def Instr.wellFormed : Instr → Bool
  | .nop => true
  | .vread len addr => inRange len addr
  | .vwrite len addr => inRange len addr
  | .rdreg reg => regExists reg
  | .wrreg reg => regExists reg
  | .fdec reg fld => fieldExists reg fld
  | .fdecr reg fld => fieldExists reg fld
  | .fenc reg fld => fieldExists reg fld
  | .fins reg fld => fieldExists reg fld
  | .rdfld reg fld => fieldExists reg fld
  | .wrfld reg fld => fieldExists reg fld
  | .waitrdy => true
  | .sreset => true
  | .busRdStatus _ => true
  | .busSelW _ => true
  | .busSelR _ => true
  | .busWrData _ => true
  | .busRdData _ => true

end Sys2Proof
end

