-- ==== Sys2Proof/Decode.lean ====
section
/-! DEFINITION. The decoder of command words and bus words, total and rejecting by name (30_encoding.md R90–R93,
R97–R100), and after it the encoder, written from the same tables. -/

namespace Sys2Proof

/-- Why a word is no instruction. -/
inductive DecodeReject where
  /-- OP is 0x0D–0x1F (30_encoding.md R91, R93). -/
  | reservedOp
  /-- A field that the row marks must-be-zero is nonzero (30_encoding.md R91, R93). -/
  | mustBeZero
  /-- A bus word outside the five kinds (30_encoding.md R99), or a word wider than its format. -/
  | noSuchBusWord
  deriving DecidableEq, Repr

/-- Field OP, bits 31:27 (30_encoding.md R90). -/
def cmdOp (w : CmdWord) : BitVec 5 := w.extractLsb' 27 5

/-- Field REG, bits 26:24 (R90). -/
def cmdReg (w : CmdWord) : BitVec 3 := w.extractLsb' 24 3

/-- Field FLD, bits 23:21 (R90). -/
def cmdFld (w : CmdWord) : BitVec 3 := w.extractLsb' 21 3

/-- Field LEN, bits 20:16 (R90). -/
def cmdLen (w : CmdWord) : BitVec 5 := w.extractLsb' 16 5

/-- Field ADDR, bits 15:8 (R90). -/
def cmdAddr (w : CmdWord) : Byte := w.extractLsb' 8 8

/-- The instruction, unless a bit that must be zero is set (30_encoding.md R93: no nonzero must-be-zero field is
ignored). -/
def unlessSet (w mbz : CmdWord) (i : Instr) : Except DecodeReject Instr :=
  if w &&& mbz = 0 then .ok i else .error .mustBeZero

/-- Decoding a command word, total on all 2^32 words (30_encoding.md R92). The second argument of `unlessSet` is the
row's mask without the OP bits. -/
def decodeCommand (w : CmdWord) : Except DecodeReject Instr :=
  match (cmdOp w).toNat with
  | 0x00 => unlessSet w 0x07FFFFFF .nop
  | 0x01 => unlessSet w 0x07E000FF (.vread (cmdLen w) (cmdAddr w))
  | 0x02 => unlessSet w 0x07E000FF (.vwrite (cmdLen w) (cmdAddr w))
  | 0x03 => unlessSet w 0x00FFFFFF (.rdreg (cmdReg w))
  | 0x04 => unlessSet w 0x00FFFFFF (.wrreg (cmdReg w))
  | 0x05 => unlessSet w 0x001FFFFF (.fdec (cmdReg w) (cmdFld w))
  | 0x06 => unlessSet w 0x001FFFFF (.fdecr (cmdReg w) (cmdFld w))
  | 0x07 => unlessSet w 0x001FFFFF (.fenc (cmdReg w) (cmdFld w))
  | 0x08 => unlessSet w 0x001FFFFF (.fins (cmdReg w) (cmdFld w))
  | 0x09 => unlessSet w 0x001FFFFF (.rdfld (cmdReg w) (cmdFld w))
  | 0x0A => unlessSet w 0x001FFFFF (.wrfld (cmdReg w) (cmdFld w))
  | 0x0B => unlessSet w 0x07FFFFFF .waitrdy
  | 0x0C => unlessSet w 0x07FFFFFF .sreset
  | _ => .error .reservedOp

/-- Decoding a bus word (30_encoding.md R97). The bits alone do not say which kind a write is: `pending` says that a write
selection waits for its data byte, and then a write is that byte; any other write is a selection (R98; log 9). -/
def decodeBus (pending : Bool) (w : BusWord) : Except DecodeReject Instr :=
  match (w.extractLsb' 8 3).toNat with
  | 0b000 => .ok (.busRdStatus (w.extractLsb' 0 8))
  | 0b010 => .ok (.busRdData (w.extractLsb' 0 8))
  | 0b101 =>
    if pending then .ok (.busWrData (w.extractLsb' 0 8))
    else if w.getLsbD 7 then .ok (.busSelW (w.extractLsb' 0 7))
    else .ok (.busSelR (w.extractLsb' 0 7))
  | _ => .error .noSuchBusWord

/-- A word of either of the two encodings (30_encoding.md, opening). -/
inductive Encoded where
  | command (w : CmdWord)
  | bus (w : BusWord)
  deriving DecidableEq, Repr

/-- The decoder over both encodings. -/
def decode (pending : Bool) : Encoded → Except DecodeReject Instr
  | .command w => decodeCommand w
  | .bus w => decodeBus pending w

/-- The instruction the decoder reads from `nbits` bits: 16 bits or fewer hold a bus word, more a command word. A lone bus
word has no write selection before it (30_encoding.md R98; log 9). -/
def decodeTableWord (nbits w : Nat) : Option Instr :=
  if nbits ≤ 16 then
    if w < 2 ^ 11 then (decodeBus false (BitVec.ofNat 11 w)).toOption else none
  else if w < 2 ^ 32 then (decodeCommand (BitVec.ofNat 32 w)).toOption
  else none

/-- A command word from its fields (30_encoding.md R90), RSV zero. -/
def packCommand (op : BitVec 5) (reg fld : BitVec 3) (len : BitVec 5) (addr : Byte) : CmdWord :=
  op ++ reg ++ fld ++ len ++ addr ++ (0#8)

/-- A bus word from its direction, physical register and byte (30_encoding.md R97). -/
def packBus (e : Config.BusEvent) : BusWord :=
  (match e.dir with | .read => 0#1 | .write => 1#1) ++ e.preg.addr ++ e.byte

/-- The bus event that a bus instruction is (30_encoding.md R97), none for a command. -/
def Instr.busEvent : Instr → Option Config.BusEvent
  | .nop => none
  | .vread _ _ => none
  | .vwrite _ _ => none
  | .rdreg _ => none
  | .wrreg _ => none
  | .fdec _ _ => none
  | .fdecr _ _ => none
  | .fenc _ _ => none
  | .fins _ _ => none
  | .rdfld _ _ => none
  | .wrfld _ _ => none
  | .waitrdy => none
  | .sreset => none
  | .busRdStatus b => some ⟨.read, .status, b⟩
  | .busSelW a => some ⟨.write, .writePtr, 1#1 ++ a⟩
  | .busSelR a => some ⟨.write, .writePtr, 0#1 ++ a⟩
  | .busWrData b => some ⟨.write, .writePtr, b⟩
  | .busRdData b => some ⟨.read, .readData, b⟩

/-- The words of an instruction (30_encoding.md R90, R91, R96, R97). -/
def encode : Instr → Encoded
  | .nop => .command (packCommand 0x00 0 0 0 0)
  | .vread len addr => .command (packCommand 0x01 0 0 len addr)
  | .vwrite len addr => .command (packCommand 0x02 0 0 len addr)
  | .rdreg reg => .command (packCommand 0x03 reg 0 0 0)
  | .wrreg reg => .command (packCommand 0x04 reg 0 0 0)
  | .fdec reg fld => .command (packCommand 0x05 reg fld 0 0)
  | .fdecr reg fld => .command (packCommand 0x06 reg fld 0 0)
  | .fenc reg fld => .command (packCommand 0x07 reg fld 0 0)
  | .fins reg fld => .command (packCommand 0x08 reg fld 0 0)
  | .rdfld reg fld => .command (packCommand 0x09 reg fld 0 0)
  | .wrfld reg fld => .command (packCommand 0x0A reg fld 0 0)
  | .waitrdy => .command (packCommand 0x0B 0 0 0 0)
  | .sreset => .command (packCommand 0x0C 0 0 0 0)
  | .busRdStatus b => .bus (packBus ⟨.read, .status, b⟩)
  | .busSelW a => .bus (packBus ⟨.write, .writePtr, 1#1 ++ a⟩)
  | .busSelR a => .bus (packBus ⟨.write, .writePtr, 0#1 ++ a⟩)
  | .busWrData b => .bus (packBus ⟨.write, .writePtr, b⟩)
  | .busRdData b => .bus (packBus ⟨.read, .readData, b⟩)

/-- The instruction stands after a write selection: it is the selection's data byte (30_encoding.md R98). -/
def Instr.afterSelection : Instr → Bool
  | .nop => false
  | .vread _ _ => false
  | .vwrite _ _ => false
  | .rdreg _ => false
  | .wrreg _ => false
  | .fdec _ _ => false
  | .fdecr _ _ => false
  | .fenc _ _ => false
  | .fins _ _ => false
  | .rdfld _ _ => false
  | .wrfld _ _ => false
  | .waitrdy => false
  | .sreset => false
  | .busRdStatus _ => false
  | .busSelW _ => false
  | .busSelR _ => false
  | .busWrData _ => true
  | .busRdData _ => false

/-- `SETFIELD reg.fld, opv` (30_encoding.md R102). -/
def pseudoSetfield (reg fld : BitVec 3) : Instr := .wrfld reg fld

/-- `GETFIELD reg.fld` (R102). -/
def pseudoGetfield (reg fld : BitVec 3) : Instr := .rdfld reg fld

/-- `SNAPSHOT reg` (R102). -/
def pseudoSnapshot (reg : BitVec 3) : Instr := .rdreg reg

/-- `VREAD1 addr` (R102). -/
def pseudoVread1 (addr : Byte) : Instr := .vread 1 addr

/-- `VWRITE1 addr, byte` (R102). -/
def pseudoVwrite1 (addr : Byte) : Instr := .vwrite 1 addr

/-- `WAIT t` (R102): a WAITRDY whose semantic operand is `F64(t)`. -/
def pseudoWait (t : F64) : Instr × Sem := (.waitrdy, .f64 t)

end Sys2Proof
end

