-- ==== Sys2Proof/Machine/Bits.lean ====
section
/-! DEFINITION. Bit-field helpers on unsigned integers and on the 192-bit latches (00_scope.md R8, 20_memory.md R62). -/

namespace Sys2Proof.Machine

/-- `tz(m)`: the index of the lowest set bit of a nonzero integer (00_scope.md R8). Of 0 the spec gives none; the answer
is 0 there, which only a MAP that fails the configuration check could meet (log 16). -/
def tz (m : Nat) : Nat := ((List.range (m.log2 + 1)).find? fun i => m.testBit i).getD 0

/-- `ones(W)` (00_scope.md R8). -/
def ones (w : Nat) : Nat := 2 ^ w - 1

/-- `a & ~m` for unsigned integers (00_scope.md R8). -/
def clearBits (a m : Nat) : Nat := (a ||| m) ^^^ m

/-- The mask is one contiguous run of ones (70_reset_and_hazards.md R281). -/
def contiguous (m : Nat) : Bool := decide ((m >>> tz m) &&& ((m >>> tz m) + 1) = 0)

/-- The byte of offset `i` of an `n`-byte value: bits 8(n−i)−1 : 8(n−i−1) (41_channel.md R127). -/
def byteAt (v : Raw) (n i : Nat) : Byte := (v >>> (8 * (n - i - 1))).setWidth 8

/-- One more byte at the less significant end: `(acc << 8) | b` (41_channel.md R130). -/
def shiftInByte (acc : Raw) (b : Byte) : Raw := (acc <<< 8) ||| b.setWidth 192

/-- `zext_192` of an unsigned integer (00_scope.md R8). -/
def zext192 (v : Nat) : Raw := BitVec.ofNat 192 v

end Sys2Proof.Machine
end

