-- ==== Sys2Proof/Machine/ConfigCheck.lean ====
section
/-! DEFINITION. The configuration check of MAP that runs at every reset (70_reset_and_hazards.md R281). -/

namespace Sys2Proof.Machine

open Sys2Proof.Config (Field Register FieldMasks)

/-- The mask passes in a register of that width after the masks before it (70_reset_and_hazards.md R281): nonzero, within
the width, disjoint from every earlier one, contiguous. -/
def maskPasses (width : Nat) (earlier : List Nat) (mask : Nat) : Bool :=
  decide (mask ≠ 0) && decide (mask >>> width = 0) && earlier.all (fun g => decide (mask &&& g = 0)) && contiguous mask

/-- The index of the first field that fails, the fields taken in index order from `i`. -/
def firstBadField (width : Nat) : List Nat → Nat → List Field → Option Nat
  | _, _, [] => none
  | earlier, i, f :: fs =>
    if maskPasses width earlier f.mask then firstBadField width (f.mask :: earlier) (i + 1) fs else some i

/-- The register and field indices of the first failure, the registers taken in index order from `r`. -/
def firstBadRegister : Nat → List Register → Option (Nat × Nat)
  | _, [] => none
  | r, reg :: regs =>
    match firstBadField reg.width [] 0 reg.fields with
    | some i => some (r, i)
    | none => firstBadRegister (r + 1) regs

/-- The configuration check of MAP (70_reset_and_hazards.md R281): the first failing (register, field), or none. -/
def configCheck (m : FieldMasks) : Option (BitVec 3 × BitVec 3) :=
  (firstBadRegister 0 (Config.map m)).map fun p => (BitVec.ofNat 3 p.1, BitVec.ofNat 3 p.2)

end Sys2Proof.Machine
end

