-- ==== Sys2Proof/Machine/State.lean ====
section
/-! DEFINITION. The state of the VRM (10_state.md R20), its reset values (R49) and the reasons a step can stop. The field
names are the spec's. -/

namespace Sys2Proof.Machine

/-- A latch that the spec resets to `UNDEF` (10_state.md R49): UNDEF, or a value (log 6). -/
inductive Latch (α : Type) where
  | undef
  | val (a : α)
  deriving DecidableEq, Repr

/-- CH_ST, the step of the handshake the channel is at (10_state.md R28, 41_channel.md R122). -/
inductive ChSt where
  | idle
  | wPoll1
  | wSel
  | wPoll2
  | wData
  | rPoll1
  | rSel
  | rPoll2
  | rRead
  deriving DecidableEq, Repr

/-- SEQ_ST, the sequencer's state (10_state.md R29). -/
inductive SeqSt where
  | idle
  | run
  | settle
  | wait
  deriving DecidableEq, Repr

/-- The kind of an InvalidFieldValue record (60_exceptions.md R256). -/
inductive ValueKind where
  | encode
  | decode
  | timeout
  deriving DecidableEq, Repr

/-- The info record of a VRM fault (60_exceptions.md R256), which also names the fault. -/
inductive FaultInfo where
  | deviceUnresponsive (state : ChSt) (addr : Byte) (offset : BitVec 5) (status : Byte)
  | invalidFieldValue (kind : ValueKind) (reg fld : BitVec 3) (value : Sem)
  | maskOverflow (reg fld : BitVec 3)
  | illegalCommand (cmd : CmdWord)
  | noSuchRegister (reg : BitVec 3)
  | noSuchField (reg fld : BitVec 3)
  | readOnlyRegister (reg : BitVec 3)
  | addressRange (addr : Byte) (len : BitVec 5)
  | noSnapshot (reg : BitVec 3) (snapV : Bool) (snapR : Latch (BitVec 3))
  deriving DecidableEq, Repr

/-- What stands outside the VRM and that a step reads: the MODEL's own fields, none of them the spec's state. -/
structure Env where
  /-- The commands submitted and not yet accepted, the first first (log 4). -/
  port : List Command
  /-- The reset input, one sample a step; an empty list is never asserted (log 5). -/
  resetPin : List Bool
  /-- Sensor answers already chosen, the next first (log 2). -/
  sensorIn : List Byte
  /-- How many answers were drawn from the opaque oracle (log 2). -/
  sensorDraws : Nat
  /-- Time readings already chosen, the next first (log 3). -/
  timeIn : List F64
  /-- How many readings were drawn from the opaque time input (log 3). -/
  timeDraws : Nat
  /-- The last reading of the time input; minus infinity while there is none (log 3). -/
  lastNow : F64
  deriving DecidableEq, Repr

/-- The state of the VRM (10_state.md R20), with the parameters (00_scope.md R7) and the model's environment. -/
structure State where
  /-- The parameters; no step writes them (10_state.md R20, R46; log 7). -/
  par : Config.Params
  /-- The environment (the model's own). -/
  env : Env
  /-- RDATA (10_state.md R23). -/
  rdata : Latch Raw
  /-- RVAL (10_state.md R24); its UNDEF is `Sem.undef`. -/
  rval : Sem
  /-- RSTAT (10_state.md R25). -/
  rstat : Byte
  /-- FLOG (10_state.md R26). -/
  flog : BitVec 16
  /-- FINFO (10_state.md R50). -/
  finfo : Latch FaultInfo
  /-- SNAP_V (10_state.md R27). -/
  snapV : Bool
  /-- SNAP_R (10_state.md R27). -/
  snapR : Latch (BitVec 3)
  /-- SNAP_D (10_state.md R27). -/
  snapD : Latch Raw
  /-- CH_ST (10_state.md R28). -/
  chSt : ChSt
  /-- CH_ADDR (10_state.md R28). -/
  chAddr : Latch Byte
  /-- CH_N (10_state.md R28). -/
  chN : Latch (BitVec 5)
  /-- CH_I (10_state.md R28). -/
  chI : Latch (BitVec 5)
  /-- CH_OUT (10_state.md R28). -/
  chOut : Latch Raw
  /-- CH_ACC (10_state.md R28). -/
  chAcc : Latch Raw
  /-- CH_POLLS (10_state.md R28). -/
  chPolls : Nat
  /-- SEQ_ST (10_state.md R29). -/
  seqSt : SeqSt
  /-- SEQ_CMD (10_state.md R29). -/
  seqCmd : Latch Command
  /-- SEQ_T0 (10_state.md R29), in seconds. -/
  seqT0 : Latch F64
  /-- CFG_OK (10_state.md R30). -/
  cfgOk : Bool
  /-- CMDCNT (10_state.md R21). -/
  cmdcnt : Nat
  /-- TRACE (10_state.md R31), in issue order. -/
  trace : List Config.BusEvent
  deriving DecidableEq, Repr

/-- The latches that can hold UNDEF and that a step reads. -/
inductive LatchName where
  | rdata
  | finfo
  | snapD
  | chAddr
  | chN
  | chI
  | chOut
  | chAcc
  | seqCmd
  | seqT0
  | rval
  deriving DecidableEq, Repr

/-- The reasons a step stops with a fault. The faults of the VRM itself (60_exceptions.md) are no stops: they complete the
command. -/
inductive Fault where
  /-- A latch was read while it holds UNDEF (93_implementation_defined.md U17). Raised by every read of such a latch; in a
  run from reset no step reads one. Safe: the machine stops where the spec gives the read no value. -/
  | undefRead (latch : LatchName)
  /-- CFG_OK = 0 although MAP passes the configuration check. Raised by accepting a command; no run from reset reaches
  such a state (70_reset_and_hazards.md R281). Safe. -/
  | cfgInconsistent
  deriving DecidableEq, Repr

/-- The reasons a step is refused. -/
inductive Refusal where
  /-- An instruction without a meaning yet: only exec's arms raise it. Safe. -/
  | notModelled (mnemonic : String)
  /-- The VRM does not issue this bus event in this state (30_encoding.md R99, 41_channel.md R121, R122). Raised by the five
  bus events. Safe: the VRM never does it. -/
  | notIssuedHere
  /-- A channel procedure ended, or a wait ran, for a command that does not use it. Raised by the returns of the channel's
  procedures and by WAITRDY's time test; no run from reset reaches such a state. Safe. -/
  | noCaller
  /-- SEQ_ST = RUN with the channel idle between steps. Raised by the fetch; no run from reset reaches such a state. Safe. -/
  | noEvent
  deriving DecidableEq, Repr

/-- The outcome of a step of the VRM. -/
abbrev Result := Host.Outcome State Fault Refusal

/-- Minus infinity in binary64: below every time reading (log 3). -/
def noReadingYet : F64 := 0xFFF0000000000000

/-- The environment of a machine to which nothing has been submitted (logs 2 to 5). -/
def Env.quiet : Env :=
  { port := [], resetPin := [], sensorIn := [], sensorDraws := 0, timeIn := [], timeDraws := 0, lastNow := noReadingYet }

/-- The VRM right after reset, with the given parameters and environment (10_state.md R49, 70_reset_and_hazards.md R280,
R281). -/
def State.resetWith (par : Config.Params) (env : Env) : State :=
  { par, env
    rdata := .undef
    rval := .undef
    rstat := 0x00
    flog := 0x0000
    finfo := .undef
    snapV := false
    snapR := .undef
    snapD := .undef
    chSt := .idle
    chAddr := .undef
    chN := .undef
    chI := .undef
    chOut := .undef
    chAcc := .undef
    chPolls := 0
    seqSt := .idle
    seqCmd := .undef
    seqT0 := .undef
    cfgOk := (configCheck par.masks).isNone
    cmdcnt := 0
    trace := [] }

/-- The machine right after reset (10_state.md R49), with the spec's default parameters (00_scope.md R7). -/
def State.reset : State := State.resetWith {} Env.quiet

end Sys2Proof.Machine
end

