-- ==== Sys2Proof/Machine/Flags.lean ====
section
/-! DEFINITION. The status latches: the fault codes of RSTAT (60_exceptions.md R250) and the sticky log FLOG (10_state.md
R26). The VRM has no other flags (10_state.md R32). -/

namespace Sys2Proof.Machine

/-- The code of a fault (60_exceptions.md R250). -/
def FaultInfo.code : FaultInfo → Byte
  | .deviceUnresponsive _ _ _ _ => 0x01
  | .invalidFieldValue _ _ _ _ => 0x02
  | .maskOverflow _ _ => 0x03
  | .illegalCommand _ => 0x04
  | .noSuchRegister _ => 0x05
  | .noSuchField _ _ => 0x06
  | .readOnlyRegister _ => 0x07
  | .addressRange _ _ => 0x08
  | .noSnapshot _ _ _ => 0x09

/-- The status of a command that completed without fault (60_exceptions.md R250). -/
def statusOk : Byte := 0x00

/-- `FLOG[c] <- 1` (10_state.md R26). -/
def logFault (flog : BitVec 16) (code : Byte) : BitVec 16 := flog ||| (1#16 <<< code.toNat)

/-- Write-busy, bit 1 of a STATUS byte (10_state.md R32, R33). -/
def writeBusy (status : Byte) : Bool := status.getLsbD Config.statusWBusyBit

/-- Read-ready, bit 0 of a STATUS byte (10_state.md R32, R33). -/
def readReady (status : Byte) : Bool := status.getLsbD Config.statusRReadyBit

end Sys2Proof.Machine
end

