-- ==== Sys2Proof/Machine/Float.lean ====
section
/-! DEFINITION. IEEE-754 binary64 and binary32 as the VRM uses them (00_scope.md R9; log 11): every operation computes
the exact result in integers and rounds once, to nearest, ties to even. -/

namespace Sys2Proof.Machine

/-- The exact real value of a number, scaled by 2^1074 so that every finite binary64 value is an integer; or an infinity,
or not a number. Comparisons are exact (00_scope.md R9). -/
inductive Ext where
  | nan
  | negInf
  | fin (scaled : Int)
  | posInf
  deriving DecidableEq, Repr

/-- `a < b` on the extended reals; false when either is not a number. -/
def extLt : Ext → Ext → Bool
  | .nan, _ => false
  | _, .nan => false
  | .negInf, .negInf => false
  | .negInf, _ => true
  | _, .negInf => false
  | .posInf, _ => false
  | .fin _, .posInf => true
  | .fin a, .fin b => decide (a < b)

/-- `a ≤ b` on the extended reals; false when either is not a number. -/
def extLe : Ext → Ext → Bool
  | .nan, _ => false
  | _, .nan => false
  | .negInf, _ => true
  | .posInf, .posInf => true
  | .posInf, _ => false
  | .fin _, .negInf => false
  | .fin _, .posInf => true
  | .fin a, .fin b => decide (a ≤ b)

/-- The sign bit of a binary64 pattern. -/
def f64Neg (x : F64) : Bool := x.msb

/-- The biased exponent field of a binary64 pattern. -/
def f64Exp (x : F64) : Nat := (x.toNat >>> 52) % 2 ^ 11

/-- The fraction field of a binary64 pattern. -/
def f64Frac (x : F64) : Nat := x.toNat % 2 ^ 52

/-- The magnitude of a finite binary64 value, scaled by 2^1074. -/
def f64Mag (x : F64) : Nat :=
  if f64Exp x = 0 then f64Frac x else (2 ^ 52 + f64Frac x) <<< (f64Exp x - 1)

/-- The value is finite. -/
def f64Finite (x : F64) : Bool := decide (f64Exp x ≠ 2047)

/-- The value is not a number. -/
def f64IsNaN (x : F64) : Bool := !f64Finite x && decide (f64Frac x ≠ 0)

/-- The value is an infinity. -/
def f64IsInf (x : F64) : Bool := !f64Finite x && decide (f64Frac x = 0)

/-- The exact value of a finite binary64 pattern, scaled by 2^1074. -/
def f64Scaled (x : F64) : Int := if f64Neg x then -(f64Mag x : Int) else (f64Mag x : Int)

/-- The value of a binary64 pattern as an extended real. -/
def f64Ext (x : F64) : Ext :=
  if f64IsNaN x then .nan
  else if f64IsInf x then (if f64Neg x then .negInf else .posInf)
  else .fin (f64Scaled x)

/-- An integer as an extended real, exactly (43_adapters.md R174). -/
def intExt (n : Int) : Ext := .fin (n * 2 ^ 1074)

/-- `n / d` rounded to the nearest integer, ties to even. -/
def roundNearestEven (n d : Nat) : Nat :=
  if 2 * (n % d) < d then n / d
  else if d < 2 * (n % d) then n / d + 1
  else n / d + (n / d) % 2

/-- The pattern (without sign) of `n / d` in a format with `p` bits of precision whose infinity has pattern `inf`, where
`n / d` counts units of the format's least subnormal. Rounded to nearest, ties to even; too large gives infinity. -/
def roundPattern (p inf n d : Nat) : Nat :=
  let t := (n / d).log2 + 1 - p
  min inf (t * 2 ^ (p - 1) + roundNearestEven n (d * 2 ^ t))

/-- The pattern of infinity in binary64, without sign. -/
def f64InfPattern : Nat := 2047 * 2 ^ 52

/-- The pattern of infinity in binary32, without sign. -/
def f32InfPattern : Nat := 255 * 2 ^ 23

/-- The binary64 value nearest ±(n/d)·2^−1074. -/
def f64Round (neg : Bool) (n d : Nat) : F64 :=
  BitVec.ofNat 64 ((if neg then 2 ^ 63 else 0) + roundPattern 53 f64InfPattern n d)

/-- An infinity of binary64. -/
def f64Inf (neg : Bool) : F64 := BitVec.ofNat 64 ((if neg then 2 ^ 63 else 0) + f64InfPattern)

/-- A result that is not a number; it is compared, never stored. -/
def f64NaN : F64 := 0x7FF8000000000000

/-- `to_f64` of an integer (00_scope.md R9); an overflow gives infinity (43_adapters.md R177). -/
def f64OfInt (n : Int) : F64 := f64Round (decide (n < 0)) (n.natAbs * 2 ^ 1074) 1

/-- `x ⊗ y` (00_scope.md R9). -/
def f64Mul (x y : F64) : F64 :=
  let neg := xor (f64Neg x) (f64Neg y)
  if f64IsNaN x || f64IsNaN y then f64NaN
  else if f64IsInf x || f64IsInf y then
    (if (f64Finite x && decide (f64Mag x = 0)) || (f64Finite y && decide (f64Mag y = 0)) then f64NaN
    else f64Inf neg)
  else f64Round neg (f64Mag x * f64Mag y) (2 ^ 1074)

/-- `x ⊘ y` (00_scope.md R9). -/
def f64Div (x y : F64) : F64 :=
  let neg := xor (f64Neg x) (f64Neg y)
  if f64IsNaN x || f64IsNaN y then f64NaN
  else if f64IsInf x then (if f64IsInf y then f64NaN else f64Inf neg)
  else if f64IsInf y then f64Round neg 0 1
  else if f64Mag y = 0 then (if f64Mag x = 0 then f64NaN else f64Inf neg)
  else f64Round neg (f64Mag x * 2 ^ 1074) (f64Mag y)

/-- The sign of an exact difference `x − y` of finite values: of a zero difference, minus only for `−0 − +0`. -/
def f64SubNeg (x y : F64) : Bool :=
  if f64Scaled x = f64Scaled y then f64Neg x && !f64Neg y else decide (f64Scaled x < f64Scaled y)

/-- `x − y` in binary64 (70_reset_and_hazards.md R302). -/
def f64Sub (x y : F64) : F64 :=
  if f64IsNaN x || f64IsNaN y then f64NaN
  else if f64IsInf x then (if f64IsInf y && (f64Neg x == f64Neg y) then f64NaN else x)
  else if f64IsInf y then f64Inf (!f64Neg y)
  else f64Round (f64SubNeg x y) (f64Scaled x - f64Scaled y).natAbs 1

/-- `trunc(x)` of a finite binary64 value, toward zero (00_scope.md R9). -/
def f64Trunc (x : F64) : Int :=
  if f64Neg x then -((f64Mag x >>> 1074 : Nat) : Int) else ((f64Mag x >>> 1074 : Nat) : Int)

/-- The magnitude pattern of `to_f32(x)` for a finite x (00_scope.md R9); 2^−149 is 2^925 units of 2^−1074. -/
def f32PatternOfFinite (x : F64) : Nat := roundPattern 24 f32InfPattern (f64Mag x) (2 ^ 925)

end Sys2Proof.Machine
end

