-- ==== Sys2Proof/Machine/Adapters.lean ====
section
/-! DEFINITION. The value adapters (43_adapters.md R170–R184). A decode or an encode that answers `none` raises
InvalidFieldValue. -/

namespace Sys2Proof.Machine

open Sys2Proof.Config (Adapter)

/-- `IdentDecode` (43_adapters.md R170): unsigned. -/
def identDecode (m : Nat) : Sem := .int m

/-- `IdentEncode` (43_adapters.md R170): any integer, no other tag. -/
def identEncode : Sem → Option Int
  | .int n => some n
  | .f64 _ => none
  | .f32 _ => none
  | .ver _ _ _ => none
  | .undef => none

/-- `LutDecode` (43_adapters.md R172): the key with that code, as a binary64 value. -/
def lutDecode (table : List (F64 × Nat)) (m : Nat) : Option Sem :=
  (table.find? fun e => e.2 == m).map fun e => .f64 e.1

/-- The number a lookup or a timeout takes from an operand: an integer exactly, a binary64 value but NaN
(43_adapters.md R174, 44_register_ops.md R220). -/
def numericOperand : Sem → Option Ext
  | .int n => some (intExt n)
  | .f64 x => if f64IsNaN x then none else some (f64Ext x)
  | .f32 _ => none
  | .ver _ _ _ => none
  | .undef => none

/-- A table entry whose key is its exact scaled value. -/
def scaledEntry (e : F64 × Nat) : Int × Nat := (f64Scaled e.1, e.2)

/-- The entry with the lesser key. -/
def lesserKey (a b : Int × Nat) : Int × Nat := if b.1 < a.1 then b else a

/-- The entry with the greater key. -/
def greaterKey (a b : Int × Nat) : Int × Nat := if a.1 < b.1 then b else a

/-- The entry whose key is nearer to `x`, exactly; of two equally near, the one with the smaller key
(43_adapters.md R175). -/
def nearerKey (x : Int) (a b : Int × Nat) : Int × Nat :=
  if (x - b.1).natAbs < (x - a.1).natAbs then b
  else if (x - b.1).natAbs = (x - a.1).natAbs then lesserKey a b
  else a

/-- The code of the key nearest to `x` among the entries `e :: es`, clamped at both ends (43_adapters.md R174). -/
def snapToKey (x : Ext) (e : Int × Nat) (es : List (Int × Nat)) : Option Nat :=
  let lo := es.foldl lesserKey e
  let hi := es.foldl greaterKey e
  if extLe x (.fin lo.1) then some lo.2
  else if extLe (.fin hi.1) x then some hi.2
  else match x with
    | .fin n => some (es.foldl (nearerKey n) e).2
    | .nan => none
    | .negInf => none
    | .posInf => none

/-- `LutEncode` (43_adapters.md R174): a table with no keys represents nothing. -/
def lutEncode (table : List (F64 × Nat)) (v : Sem) : Option Int :=
  match table.map scaledEntry with
  | [] => none
  | e :: es =>
    match numericOperand v with
    | none => none
    | some x => (snapToKey x e es).map Int.ofNat

/-- `ScaleDecode` (43_adapters.md R176). -/
def scaleDecode (k : F64) (m : Nat) : Sem := .f64 (f64Div (f64OfInt m) k)

/-- The binary64 operand of the scale adapter (43_adapters.md R177). -/
def scaleOperand : Sem → Option F64
  | .int n => some (f64OfInt n)
  | .f64 y => some y
  | .f32 _ => none
  | .ver _ _ _ => none
  | .undef => none

/-- `ScaleEncode` (43_adapters.md R177): the binary64 product, truncated toward zero. -/
def scaleEncode (k : F64) (v : Sem) : Option Int :=
  match scaleOperand v with
  | none => none
  | some x =>
    if f64Finite x then
      if f64Finite (f64Mul x k) then some (f64Trunc (f64Mul x k)) else none
    else none

/-- `F32Decode` (43_adapters.md R179): the pattern is kept whole. -/
def f32Decode (m : Nat) : Sem := .f32 (BitVec.ofNat 32 m)

/-- The binary32 pattern of a binary64 value (43_adapters.md R180); a finite value that overflows has none. -/
def f32OfF64 (x : F64) : Option Nat :=
  if f64IsNaN x then some 0x7FC00000
  else if f64IsInf x then some (if f64Neg x then 0xFF800000 else 0x7F800000)
  else if f32PatternOfFinite x = f32InfPattern then none
  else some ((if f64Neg x then 2 ^ 31 else 0) + f32PatternOfFinite x)

/-- `F32Encode` (43_adapters.md R180, R184): of an integer, that of its `to_f64`; an integer whose `to_f64` overflows
overflows binary32 too and has none (60_exceptions.md R254; log 23). -/
def f32Encode : Sem → Option Int
  | .int n => if f64Finite (f64OfInt n) then (f32OfF64 (f64OfInt n)).map Int.ofNat else none
  | .f64 x => (f32OfF64 x).map Int.ofNat
  | .f32 p => some p.toNat
  | .ver _ _ _ => none
  | .undef => none

/-- `FwDecode` (43_adapters.md R181): major m[7:4], minor m[3:0] above m[15:14], sub m[13:8]. -/
def fwDecode (m : Nat) : Sem :=
  .ver (BitVec.ofNat 4 (m >>> 4)) (BitVec.ofNat 6 (((m % 16) <<< 2) ||| ((m >>> 14) % 4))) (BitVec.ofNat 6 (m >>> 8))

/-- `FwEncode` (43_adapters.md R183): no value has an encoding. -/
def fwEncode (_ : Sem) : Option Int := none

/-- The string form of a firmware version, its presentation (43_adapters.md R182). -/
def versionString (maj : BitVec 4) (min sub : BitVec 6) : String :=
  toString maj.toNat ++ "." ++ toString min.toNat ++ "." ++ toString sub.toNat

/-- `AdapterDecode` (43_adapters.md R171). -/
def adapterDecode : Adapter → Nat → Option Sem
  | .ident, m => some (identDecode m)
  | .lut table, m => lutDecode table m
  | .scale k, m => some (scaleDecode k m)
  | .f32, m => some (f32Decode m)
  | .fwver, m => some (fwDecode m)

/-- `AdapterEncode` (43_adapters.md R171). -/
def adapterEncode : Adapter → Sem → Option Int
  | .ident, v => identEncode v
  | .lut table, v => lutEncode table v
  | .scale k, v => scaleEncode k v
  | .f32, v => f32Encode v
  | .fwver, v => fwEncode v

end Sys2Proof.Machine
end

