-- ==== Sys2Proof/Machine/Codec.lean ====
section
/-! DEFINITION. The bit-field codec's pure functions (42_codec.md R150–R153, R159). -/

namespace Sys2Proof.Machine

open Sys2Proof.Config (Field Register)

/-- The bits of a field, in the low positions (42_codec.md R150): no sign extension. -/
def extractField (f : Field) (raw : Nat) : Nat := (raw &&& f.mask) >>> tz f.mask

/-- `FieldDecode` (42_codec.md R150); `none` raises InvalidFieldValue. -/
def fieldDecode (f : Field) (raw : Nat) : Option Sem := adapterDecode f.adapter (extractField f raw)

/-- An encoded integer in the field's place: shifted, reduced to the register's width in two's complement, masked
(42_codec.md R151). -/
def placeBits (f : Field) (width : Nat) (r : Int) : Nat :=
  ((r * 2 ^ tz f.mask) % 2 ^ width).toNat &&& f.mask

/-- `FieldEncode` (42_codec.md R151); `none` raises InvalidFieldValue. -/
def fieldEncode (f : Field) (width : Nat) (v : Sem) : Option Nat := (adapterEncode f.adapter v).map (placeBits f width)

/-- `Merge` (42_codec.md R152): the field's old bits are cleared first. -/
def merge (f : Field) (width old bits : Nat) : Nat := (clearBits old f.mask ||| bits) &&& ones width

/-- `RegMask` (42_codec.md R153). -/
def regMask (r : Register) (v : Nat) : Nat := v % 2 ^ r.width

end Sys2Proof.Machine
end

