-- ==== Sys2Proof/Machine/Operands.lean ====
section
/-! DEFINITION. Operand assembly: a command's register and field, the low bits of OPD, the bytes of the bus events
(30_encoding.md R94, R96, 42_codec.md R154). -/

namespace Sys2Proof.Machine

open Sys2Proof.Config (Field Register FieldMasks)

/-- The register a command names (42_codec.md R154): MAP has seven. -/
def lookupRegister (m : FieldMasks) (reg : BitVec 3) : Except FaultInfo Register :=
  match (Config.map m)[reg.toNat]? with
  | some r => .ok r
  | none => .error (.noSuchRegister reg)

/-- `LookupField` (42_codec.md R154). -/
def lookupField (m : FieldMasks) (reg fld : BitVec 3) : Except FaultInfo (Register × Field) :=
  match (Config.map m)[reg.toNat]? with
  | none => .error (.noSuchRegister reg)
  | some r =>
    match r.fields[fld.toNat]? with
    | none => .error (.noSuchField reg fld)
    | some f => .ok (r, f)

/-- The index of CONTROL (10_state.md R35). -/
def controlIndex : BitVec 3 := 1

/-- The index of CONTROL.data_ready (10_state.md R37). -/
def dataReadyIndex : BitVec 3 := 4

/-- CONTROL.data_ready, the field WAITRDY polls (44_register_ops.md R220). -/
def dataReadyField (m : FieldMasks) : Field := ⟨m.dataReady, .ident⟩

/-- CONTROL.reset, the field SRESET sets (44_register_ops.md R222). -/
def resetField (m : FieldMasks) : Field := ⟨m.reset, .ident⟩

/-- The address of CONTROL as WAITRDY and SRESET use it (44_register_ops.md R220, R222). -/
def controlAddr : Byte := 0x04

/-- The width of CONTROL in bits (10_state.md R37). -/
def controlWidth : Nat := 8

/-- The low `n` bits of OPD (30_encoding.md R94). -/
def opdLow (opd : Raw) (n : Nat) : Nat := opd.toNat % 2 ^ n

/-- The byte of a write selection (30_encoding.md R96): the base address with bit 7 set, whatever the offset. -/
def writeSelection (addr : Byte) : Byte := addr ||| Config.ptrWriteFlag

/-- The byte of a read selection (30_encoding.md R96): (CH_ADDR + CH_I) mod 256. -/
def readSelection (addr : Byte) (i : BitVec 5) : Byte := addr + i.setWidth 8

end Sys2Proof.Machine
end

