-- ==== Sys2Proof/Machine/Ops.lean ====
section
/-! DEFINITION. The shared operations of the VRM: reading a latch, completing a command with or without a fault, the bus
and time primitives (00_scope.md R10), and starting a channel procedure (41_channel.md R120). -/

namespace Sys2Proof.Machine

/-- Read a latch and go on with its value; a read while it holds UNDEF has no value (93_implementation_defined.md U17). -/
def withLatch {α : Type} (l : Latch α) (name : LatchName) (k : α → Result) : Result :=
  match l with
  | .undef => .fault (.undefRead name)
  | .val a => k a

/-- `Complete()` (60_exceptions.md R252). -/
def complete (s : State) : State := { s with seqSt := .idle, cmdcnt := s.cmdcnt + 1 }

/-- The last line of every body, `RSTAT <- 0x00`, and completion (60_exceptions.md R252). -/
def finishOk (s : State) : State := complete { s with rstat := statusOk }

/-- `raise F(info)`, fault completion: TAKING AN EXCEPTION on this hardware (60_exceptions.md R255). What the command
wrote before it stays (R269). -/
def raise (info : FaultInfo) (s : State) : State :=
  { s with
    chSt := .idle
    chPolls := 0
    rstat := info.code
    flog := logFault s.flog info.code
    finfo := .val info
    seqSt := .idle
    cmdcnt := s.cmdcnt + 1 }

/-- `raise` as the outcome of a step: the machine goes on. -/
def raised (info : FaultInfo) (s : State) : Result := .next (raise info s)

/-- A command acts on the register it names, or faults (42_codec.md R154). -/
def withRegister (reg : BitVec 3) (s : State) (k : Config.Register → Result) : Result :=
  match lookupRegister s.par.masks reg with
  | .error info => raised info s
  | .ok r => k r

/-- A command acts on the field it names, or faults (42_codec.md R154). -/
def withField (reg fld : BitVec 3) (s : State) (k : Config.Register → Config.Field → Result) : Result :=
  match lookupField s.par.masks reg fld with
  | .error info => raised info s
  | .ok (r, f) => k r f

/-- A bus event is appended to TRACE (00_scope.md R10, 10_state.md R31). -/
def emit (e : Config.BusEvent) (s : State) : State := { s with trace := s.trace ++ [e] }

/-- The sensor's answer to the next read of a physical register (20_memory.md R60; log 2): one already chosen, or a free
value. -/
def sensorAnswer (preg : Config.Preg) (s : State) : Byte × State :=
  match s.env.sensorIn with
  | b :: rest => (b, { s with env := { s.env with sensorIn := rest } })
  | [] =>
    (Config.sensorByte s.env.sensorDraws s.trace preg,
      { s with env := { s.env with sensorDraws := s.env.sensorDraws + 1 } })

/-- A proposed reading of the time input, taken only if it is finite and not before the last one (44_register_ops.md
R221; log 3). -/
def timeReading (last proposed : F64) : F64 :=
  if f64Finite proposed && extLe (f64Ext last) (f64Ext proposed) then proposed else last

/-- `now()` (44_register_ops.md R221). -/
def now (s : State) : F64 × State :=
  match s.env.timeIn with
  | t :: rest =>
    let r := timeReading s.env.lastNow t
    (r, { s with env := { s.env with timeIn := rest, lastNow := r } })
  | [] =>
    let r := timeReading s.env.lastNow (Config.timeDraw s.env.timeDraws)
    (r, { s with env := { s.env with timeDraws := s.env.timeDraws + 1, lastNow := r } })

/-- The channel comes to a step of the handshake; a poll counts its failed reads from 0 (41_channel.md R122, R123;
log 15). -/
def enter (st : ChSt) (s : State) : State := { s with chSt := st, chPolls := 0 }

/-- `MemRead(addr, n)` starts (41_channel.md R130). -/
def startRead (addr : Byte) (n : BitVec 5) (s : State) : State :=
  enter .rPoll1 { s with chAddr := .val addr, chN := .val n, chAcc := .val 0, chI := .val 0 }

/-- `MemWrite(addr, n, v)` starts (41_channel.md R128). -/
def startWrite (addr : Byte) (n : BitVec 5) (v : Nat) (s : State) : State :=
  enter .wPoll1
    { s with
      chAddr := .val addr
      chN := .val n
      chOut := .val (zext192 (v % 2 ^ (8 * n.toNat)))
      chI := .val 0 }

/-- The byte count of a register as the channel holds it (20_memory.md R66). -/
def registerLen (r : Config.Register) : BitVec 5 := BitVec.ofNat 5 r.bytes

/-- The snapshot takes a raw value of a register (10_state.md R27). -/
def takeSnapshot (reg : BitVec 3) (v : Raw) (s : State) : State :=
  { s with snapD := .val v, snapR := .val reg, snapV := true }

/-- A write command drops the snapshot of the register it writes (44_register_ops.md R214, R218). -/
def dropSnapshotOf (reg : BitVec 3) (s : State) : State :=
  if s.snapV = true ∧ s.snapR = .val reg then { s with snapV := false } else s

/-- The poll bound is reached by that many failed reads (41_channel.md R123, R125). -/
def pollBoundReached (limit : Config.PollLimit) (polls : Nat) : Bool :=
  match limit with
  | .unbounded => false
  | .bound l => decide (l ≤ polls)

/-- The response of a command (10_state.md R22) as the latches stand. -/
def State.response (s : State) : Byte × Latch Raw × Sem × Latch FaultInfo := (s.rstat, s.rdata, s.rval, s.finfo)

/-- Observing a latch: while it holds UNDEF the observation has no value and faults (10_state.md R23, R50). -/
def observeLatch {α : Type} (l : Latch α) (name : LatchName) : Except Fault α :=
  match l with
  | .undef => .error (.undefRead name)
  | .val a => .ok a

/-- Observing RVAL (10_state.md R24): the same reading rule. -/
def observeRval (s : State) : Except Fault Sem :=
  if s.rval = .undef then .error (.undefRead .rval) else .ok s.rval

end Sys2Proof.Machine
end

