-- ==== Sys2Proof/Machine/ChannelCommands.lean ====
section
/-! DEFINITION. The channel commands VREAD and VWRITE (41_channel.md R135, R136). Each body runs up to its first bus event
when the command is accepted; its last lines run when the channel procedure returns (log 1). -/

namespace Sys2Proof.Machine

/-- VREAD, up to its MemRead (41_channel.md R135). -/
def execVread (len : BitVec 5) (addr : Byte) (s : State) : Result :=
  if inRange len addr then .next (startRead addr len s) else raised (.addressRange addr len) s

/-- VREAD, after its MemRead (41_channel.md R135). The snapshot is not touched. -/
def vreadReturn (v : Raw) (s : State) : Result := .next (finishOk { s with rdata := .val v })

/-- VWRITE, up to its MemWrite (41_channel.md R136). -/
def execVwrite (len : BitVec 5) (addr : Byte) (s : State) : Result :=
  if inRange len addr then
    withLatch s.seqCmd .seqCmd fun c => .next (startWrite addr len (opdLow c.opd (8 * len.toNat)) s)
  else raised (.addressRange addr len) s

/-- VWRITE, after its MemWrite (41_channel.md R136): RSTAT only. -/
def vwriteReturn (s : State) : Result := .next (finishOk s)

end Sys2Proof.Machine
end

