-- ==== Sys2Proof/Machine/FacadeCommands.lean ====
section
/-! DEFINITION. WAITRDY, SRESET and NOP (44_register_ops.md R220–R224). The part of a body after a channel procedure, and
each time test, runs in a step of its own (log 1). -/

namespace Sys2Proof.Machine

/-- NOP (44_register_ops.md R224). -/
def execNop (s : State) : Result := .next (finishOk s)

/-- One poll of WAITRDY starts: a MemRead of CONTROL (44_register_ops.md R220). -/
def startWaitPoll (s : State) : State := startRead controlAddr 1 { s with seqSt := .run }

/-- WAITRDY, up to its first MemRead (44_register_ops.md R220). -/
def execWaitrdy (s : State) : Result :=
  withLatch s.seqCmd .seqCmd fun c =>
    match numericOperand c.opv with
    | none => raised (.invalidFieldValue .timeout controlIndex dataReadyIndex c.opv) s
    | some _ => .next (startWaitPoll { (now s).2 with seqT0 := .val (now s).1 })

/-- WAITRDY, after one poll's MemRead (44_register_ops.md R220): readiness is tested before the time. -/
def waitrdyPolled (v : Raw) (s : State) : Result :=
  let t := { takeSnapshot controlIndex v s with rdata := .val v }
  match fieldDecode (dataReadyField s.par.masks) v.toNat with
  | none => raised (.invalidFieldValue .decode controlIndex dataReadyIndex
      (.int (extractField (dataReadyField s.par.masks) v.toNat))) t
  | some d =>
    if d = .int 1 then .next (finishOk { t with rval := .int 1 })
    else .next { t with seqSt := .wait }

/-- The difference `now() − SEQ_T0` in binary64 (70_reset_and_hazards.md R302). -/
def elapsed (t t0 : F64) : Ext := f64Ext (f64Sub t t0)

/-- WAITRDY's time test between two polls (44_register_ops.md R220): strictly greater ends the wait (R302). -/
def waitTick (s : State) : Result :=
  withLatch s.seqCmd .seqCmd fun c =>
    withLatch s.seqT0 .seqT0 fun t0 =>
      match numericOperand c.opv with
      | none => .refused .noCaller
      | some limit =>
        if extLt limit (elapsed (now s).1 t0) then .next (finishOk { (now s).2 with rval := .int 0, seqSt := .run })
        else .next (startWaitPoll (now s).2)

/-- SRESET, up to its MemRead (44_register_ops.md R222): the snapshot is dropped before the first bus event. -/
def execSreset (s : State) : Result :=
  match fieldEncode (resetField s.par.masks) controlWidth (.int 1) with
  | none => raised (.invalidFieldValue .encode controlIndex 0 (.int 1)) s
  | some _ => .next (startRead controlAddr 1 { s with snapV := false })

/-- SRESET, between its MemRead of `old` and its MemWrite (44_register_ops.md R222). -/
def sresetMerge (old : Raw) (s : State) : Result :=
  match fieldEncode (resetField s.par.masks) controlWidth (.int 1) with
  | none => .refused .noCaller
  | some bits =>
    .next (startWrite controlAddr 1 (merge (resetField s.par.masks) controlWidth old.toNat bits) s)

/-- SRESET, after its MemWrite of `new`: the settle starts (44_register_ops.md R222). -/
def sresetWritten (new : Raw) (s : State) : Result :=
  let t := { s with rdata := .val new, seqSt := .settle }
  .next { (now t).2 with seqT0 := .val (now t).1 }

/-- The settle's time test (44_register_ops.md R222): no bus event, until SETTLE_TIME has passed (R302). -/
def settleTick (s : State) : Result :=
  withLatch s.seqT0 .seqT0 fun t0 =>
    if extLe (intExt Config.settleTime) (elapsed (now s).1 t0) then .next (finishOk { (now s).2 with seqSt := .run })
    else .next (now s).2

end Sys2Proof.Machine
end

