-- ==== Sys2Proof/Machine/RegisterCommands.lean ====
section
/-! DEFINITION. The register commands RDREG, FDEC, WRREG, RDFLD and WRFLD (44_register_ops.md R210–R219). The part of a
body after a channel procedure runs when the procedure returns (log 1). -/

namespace Sys2Proof.Machine

/-- RDREG, up to its MemRead (44_register_ops.md R210). -/
def execRdreg (reg : BitVec 3) (s : State) : Result :=
  withRegister reg s fun r => .next (startRead r.addr (registerLen r) s)

/-- RDREG, after its MemRead (44_register_ops.md R210). -/
def rdregReturn (reg : BitVec 3) (v : Raw) (s : State) : Result :=
  .next (finishOk { takeSnapshot reg v s with rdata := .val v })

/-- FDEC (44_register_ops.md R212). The record's SNAP_R is UNDEF while no snapshot is held (60_exceptions.md R256). -/
def execFdec (reg fld : BitVec 3) (s : State) : Result :=
  withField reg fld s fun r f =>
    if s.snapV = true ∧ s.snapR = .val reg then
      withLatch s.snapD .snapD fun d =>
        match fieldDecode f (opdLow d r.width) with
        | some v => .next (finishOk { s with rval := v })
        | none => raised (.invalidFieldValue .decode reg fld (.int (extractField f (opdLow d r.width)))) s
    else raised (.noSnapshot reg s.snapV (if s.snapV then s.snapR else .undef)) s

/-- WRREG, up to its MemWrite (44_register_ops.md R214): the access check comes before every bus event (R215). -/
def execWrreg (reg : BitVec 3) (s : State) : Result :=
  withRegister reg s fun r =>
    match r.access with
    | .ro => raised (.readOnlyRegister reg) s
    | .rw =>
      withLatch s.seqCmd .seqCmd fun c =>
        .next (startWrite r.addr (registerLen r) (regMask r c.opd.toNat) (dropSnapshotOf reg s))

/-- WRREG, after its MemWrite of `v` (44_register_ops.md R214). -/
def wrregReturn (v : Raw) (s : State) : Result := .next (finishOk { s with rdata := .val v })

/-- RDFLD, up to its MemRead (44_register_ops.md R216). -/
def execRdfld (reg fld : BitVec 3) (s : State) : Result :=
  withField reg fld s fun r _ => .next (startRead r.addr (registerLen r) s)

/-- RDFLD, after its MemRead (44_register_ops.md R216): SNAP_* and RDATA are written before the decode (R269). -/
def rdfldReturn (reg fld : BitVec 3) (v : Raw) (s : State) : Result :=
  withField reg fld s fun r f =>
    match fieldDecode f (opdLow v r.width) with
    | some x => .next (finishOk { takeSnapshot reg v s with rdata := .val v, rval := x })
    | none =>
      raised (.invalidFieldValue .decode reg fld (.int (extractField f (opdLow v r.width))))
        { takeSnapshot reg v s with rdata := .val v }

/-- WRFLD, up to its MemRead (44_register_ops.md R218): the access check, then the encode, then the bus. -/
def execWrfld (reg fld : BitVec 3) (s : State) : Result :=
  withField reg fld s fun r f =>
    match r.access with
    | .ro => raised (.readOnlyRegister reg) s
    | .rw =>
      withLatch s.seqCmd .seqCmd fun c =>
        match fieldEncode f r.width c.opv with
        | none => raised (.invalidFieldValue .encode reg fld c.opv) s
        | some _ => .next (startRead r.addr (registerLen r) (dropSnapshotOf reg s))

/-- WRFLD, between its MemRead of `old` and its MemWrite (44_register_ops.md R218). The field bits are those of the
encode before the read, computed again from OPV (log 13). -/
def wrfldMerge (reg fld : BitVec 3) (opv : Sem) (old : Raw) (s : State) : Result :=
  withField reg fld s fun r f =>
    match fieldEncode f r.width opv with
    | none => .refused .noCaller
    | some bits => .next (startWrite r.addr (registerLen r) (merge f r.width old.toNat bits) s)

/-- WRFLD, after its MemWrite of `new` (44_register_ops.md R218). -/
def wrfldReturn (new : Raw) (s : State) : Result := .next (finishOk { s with rdata := .val new })

end Sys2Proof.Machine
end

