-- ==== Sys2Proof/Machine/Returns.lean ====
section
/-! DEFINITION. A channel procedure returns to the command that called it (41_channel.md R120): the executing command is
SEQ_CMD (10_state.md R29). -/

namespace Sys2Proof.Machine

/-- MemRead returns `v` (41_channel.md R130). A command that makes no MemRead has no use of it (log 10). -/
def readReturn (v : Raw) (s : State) : Result :=
  withLatch s.seqCmd .seqCmd fun c =>
    match decodeCommand c.cmd with
    | .error _ => .refused .noCaller
    | .ok i =>
      match i with
      | .nop => .refused .noCaller
      | .vread _ _ => vreadReturn v s
      | .vwrite _ _ => .refused .noCaller
      | .rdreg reg => rdregReturn reg v s
      | .wrreg _ => .refused .noCaller
      | .fdec _ _ => .refused .noCaller
      | .fdecr _ _ => .refused .noCaller
      | .fenc _ _ => .refused .noCaller
      | .fins _ _ => .refused .noCaller
      | .rdfld reg fld => rdfldReturn reg fld v s
      | .wrfld reg fld => wrfldMerge reg fld c.opv v s
      | .waitrdy => waitrdyPolled v s
      | .sreset => sresetMerge v s
      | .busRdStatus _ => .refused .noCaller
      | .busSelW _ => .refused .noCaller
      | .busSelR _ => .refused .noCaller
      | .busWrData _ => .refused .noCaller
      | .busRdData _ => .refused .noCaller

/-- MemWrite of `v` returns (41_channel.md R128). A command that makes no MemWrite has no use of it (log 10). -/
def writeReturn (v : Raw) (s : State) : Result :=
  withLatch s.seqCmd .seqCmd fun c =>
    match decodeCommand c.cmd with
    | .error _ => .refused .noCaller
    | .ok i =>
      match i with
      | .nop => .refused .noCaller
      | .vread _ _ => .refused .noCaller
      | .vwrite _ _ => vwriteReturn s
      | .rdreg _ => .refused .noCaller
      | .wrreg _ => wrregReturn v s
      | .fdec _ _ => .refused .noCaller
      | .fdecr _ _ => .refused .noCaller
      | .fenc _ _ => .refused .noCaller
      | .fins _ _ => .refused .noCaller
      | .rdfld _ _ => .refused .noCaller
      | .wrfld _ _ => wrfldReturn v s
      | .waitrdy => .refused .noCaller
      | .sreset => sresetWritten v s
      | .busRdStatus _ => .refused .noCaller
      | .busSelW _ => .refused .noCaller
      | .busSelR _ => .refused .noCaller
      | .busWrData _ => .refused .noCaller
      | .busRdData _ => .refused .noCaller

end Sys2Proof.Machine
end

