-- ==== Sys2Proof/Machine/BusEvents.lean ====
section
/-! DEFINITION. The five kinds of bus event: the channel's steps, one bus event a step (41_channel.md R122). An event the
channel is not at is not issued (30_encoding.md R99; log 10). -/

namespace Sys2Proof.Machine

/-- Whether a STATUS byte satisfies the poll the channel is at (41_channel.md R123, R124); none at no poll. -/
def pollSatisfied : ChSt → Byte → Option Bool
  | .wPoll1, b => some (!writeBusy b)
  | .wPoll2, b => some (!writeBusy b)
  | .rPoll1, b => some (!writeBusy b)
  | .rPoll2, b => some (readReady b)
  | .idle, _ => none
  | .wSel, _ => none
  | .wData, _ => none
  | .rSel, _ => none
  | .rRead, _ => none

/-- Where a satisfied poll goes (41_channel.md R122). -/
def afterPoll : ChSt → ChSt
  | .wPoll1 => .wSel
  | .wPoll2 => .wData
  | .rPoll1 => .rSel
  | .rPoll2 => .rRead
  | .idle => .idle
  | .wSel => .wSel
  | .wData => .wData
  | .rSel => .rSel
  | .rRead => .rRead

/-- BUS_RD_STATUS answered with `b` (41_channel.md R122–R125, 60_exceptions.md R253). -/
def execBusRdStatus (b : Byte) (s : State) : Result :=
  let t := emit ⟨.read, .status, b⟩ s
  match pollSatisfied s.chSt b with
  | none => .refused .notIssuedHere
  | some true => .next (enter (afterPoll s.chSt) t)
  | some false =>
    if pollBoundReached s.par.pollLimit (s.chPolls + 1) then
      withLatch s.chAddr .chAddr fun addr =>
        withLatch s.chI .chI fun i =>
          raised (.deviceUnresponsive s.chSt addr i b) { t with chPolls := s.chPolls + 1 }
    else .next { t with chPolls := s.chPolls + 1 }

/-- BUS_SEL_W with the base address (41_channel.md R122, R128). -/
def execBusSelW (a : BitVec 7) (s : State) : Result :=
  if s.chSt = .wSel then
    withLatch s.chAddr .chAddr fun addr =>
      if writeSelection addr = 1#1 ++ a then .next (enter .wPoll2 (emit ⟨.write, .writePtr, 1#1 ++ a⟩ s))
      else .refused .notIssuedHere
  else .refused .notIssuedHere

/-- BUS_SEL_R with the base address plus the offset (41_channel.md R122, R130). -/
def execBusSelR (a : BitVec 7) (s : State) : Result :=
  if s.chSt = .rSel then
    withLatch s.chAddr .chAddr fun addr =>
      withLatch s.chI .chI fun i =>
        if readSelection addr i = 0#1 ++ a then .next (enter .rPoll2 (emit ⟨.write, .writePtr, 0#1 ++ a⟩ s))
        else .refused .notIssuedHere
  else .refused .notIssuedHere

/-- BUS_WR_DATA with byte CH_I of CH_OUT (41_channel.md R122, R128): on to the next byte, or MemWrite returns. -/
def execBusWrData (d : Byte) (s : State) : Result :=
  if s.chSt = .wData then
    withLatch s.chOut .chOut fun out =>
      withLatch s.chN .chN fun n =>
        withLatch s.chI .chI fun i =>
          if i.toNat < n.toNat ∧ byteAt out n.toNat i.toNat = d then
            if i.toNat + 1 < n.toNat then
              .next (enter .wPoll1 { emit ⟨.write, .writePtr, d⟩ s with chI := .val (i + 1) })
            else writeReturn out (enter .idle (emit ⟨.write, .writePtr, d⟩ s))
          else .refused .notIssuedHere
  else .refused .notIssuedHere

/-- BUS_RD_DATA answered with `d` (41_channel.md R122, R130): on to the next byte, or MemRead returns. -/
def execBusRdData (d : Byte) (s : State) : Result :=
  if s.chSt = .rRead then
    withLatch s.chAcc .chAcc fun acc =>
      withLatch s.chN .chN fun n =>
        withLatch s.chI .chI fun i =>
          if i.toNat < n.toNat then
            let t := { emit ⟨.read, .readData, d⟩ s with chAcc := .val (shiftInByte acc d) }
            if i.toNat + 1 < n.toNat then .next (enter .rPoll1 { t with chI := .val (i + 1) })
            else readReturn (shiftInByte acc d) (enter .idle t)
          else .refused .notIssuedHere
  else .refused .notIssuedHere

end Sys2Proof.Machine
end

