-- ==== Sys2Proof/Machine/CodecCommands.lean ====
section
/-! DEFINITION. The pure codec commands FDECR, FENC and FINS (42_codec.md R156–R158): no bus event, no access to the
snapshot. -/

namespace Sys2Proof.Machine

/-- FDECR (42_codec.md R156). -/
def execFdecr (reg fld : BitVec 3) (s : State) : Result :=
  withField reg fld s fun r f =>
    withLatch s.seqCmd .seqCmd fun c =>
      match fieldDecode f (opdLow c.opd r.width) with
      | some v => .next (finishOk { s with rval := v })
      | none => raised (.invalidFieldValue .decode reg fld (.int (extractField f (opdLow c.opd r.width)))) s

/-- FENC (42_codec.md R157). -/
def execFenc (reg fld : BitVec 3) (s : State) : Result :=
  withField reg fld s fun r f =>
    withLatch s.seqCmd .seqCmd fun c =>
      match fieldEncode f r.width c.opv with
      | some bits => .next (finishOk { s with rdata := .val (zext192 bits) })
      | none => raised (.invalidFieldValue .encode reg fld c.opv) s

/-- FINS (42_codec.md R158). -/
def execFins (reg fld : BitVec 3) (s : State) : Result :=
  withField reg fld s fun r f =>
    withLatch s.seqCmd .seqCmd fun c =>
      match fieldEncode f r.width c.opv with
      | some bits =>
        .next (finishOk { s with rdata := .val (zext192 (merge f r.width (opdLow c.opd r.width) bits)) })
      | none => raised (.invalidFieldValue .encode reg fld c.opv) s

end Sys2Proof.Machine
end

