-- ==== Sys2Proof/Machine/Dispatch.lean ====
section
/-! DEFINITION. The meaning of each instruction, one arm a constructor. -/

namespace Sys2Proof.Machine

def exec (i : Instr) (s : State) : Host.Outcome State Fault Refusal :=
  match i with
  | .nop => Sys2Proof.Machine.execNop s
  | .vread len addr => Sys2Proof.Machine.execVread len addr s
  | .vwrite len addr => Sys2Proof.Machine.execVwrite len addr s
  | .rdreg reg => Sys2Proof.Machine.execRdreg reg s
  | .wrreg reg => Sys2Proof.Machine.execWrreg reg s
  | .fdec reg fld => Sys2Proof.Machine.execFdec reg fld s
  | .fdecr reg fld => Sys2Proof.Machine.execFdecr reg fld s
  | .fenc reg fld => Sys2Proof.Machine.execFenc reg fld s
  | .fins reg fld => Sys2Proof.Machine.execFins reg fld s
  | .rdfld reg fld => Sys2Proof.Machine.execRdfld reg fld s
  | .wrfld reg fld => Sys2Proof.Machine.execWrfld reg fld s
  | .waitrdy => Sys2Proof.Machine.execWaitrdy s
  | .sreset => Sys2Proof.Machine.execSreset s
  | .busRdStatus status => Sys2Proof.Machine.execBusRdStatus status s
  | .busSelW addr => Sys2Proof.Machine.execBusSelW addr s
  | .busSelR addr => Sys2Proof.Machine.execBusSelR addr s
  | .busWrData data => Sys2Proof.Machine.execBusWrData data s
  | .busRdData data => Sys2Proof.Machine.execBusRdData data s

end Sys2Proof.Machine
end

