-- ==== Sys2Proof/Machine/Sequencer.lean ====
section
/-! DEFINITION. What the next step does: reset, the next command of the port, the channel's next bus event, or a time
test (10_state.md R21, R29, 41_channel.md R122, 60_exceptions.md R252, 70_reset_and_hazards.md R280). -/

namespace Sys2Proof.Machine

/-- What a step does: it runs an instruction from a state, or it is already settled. -/
inductive Agenda where
  | issue (i : Instr) (s : State)
  | settled (r : Result)

/-- The reset input's sample for this step (log 5). -/
def resetAsserted (s : State) : Bool :=
  match s.env.resetPin with
  | [] => false
  | b :: _ => b

/-- The reset input is sampled once a step (log 5). -/
def sampleReset (s : State) : State := { s with env := { s.env with resetPin := s.env.resetPin.tail } }

/-- A VRM reset (70_reset_and_hazards.md R280): every piece of VRM state at its reset value; the sensor, the time input
and what the client has yet to submit are outside the VRM. -/
def vrmReset (s : State) : State := State.resetWith s.par s.env

/-- The first lines of `Accept` (60_exceptions.md R252). -/
def acceptCommand (c : Command) (rest : List Command) (s : State) : State :=
  { s with env := { s.env with port := rest }, seqSt := .run, seqCmd := .val c }

/-- `Accept`: the configuration check first, then the decoding, then the command (60_exceptions.md R252, R257). -/
def accept (c : Command) (rest : List Command) (s : State) : Agenda :=
  let t := acceptCommand c rest s
  if s.cfgOk then
    match decodeCommand c.cmd with
    | .error _ => .settled (raised (.illegalCommand c.cmd) t)
    | .ok i => .issue i t
  else
    match configCheck s.par.masks with
    | none => .settled (.fault .cfgInconsistent)
    | some (reg, fld) => .settled (raised (.maskOverflow reg fld) t)

/-- A read event: the sensor answers, and the event carries the answer (20_memory.md R60; log 9). -/
def issueRead (preg : Config.Preg) (event : Byte → Instr) (s : State) : Agenda :=
  .issue (event (sensorAnswer preg s).1) (sensorAnswer preg s).2

/-- The channel's next bus event (41_channel.md R122). -/
def channelEvent (s : State) : Agenda :=
  match s.chSt with
  | .idle => .settled (.refused .noEvent)
  | .wPoll1 => issueRead .status .busRdStatus s
  | .wPoll2 => issueRead .status .busRdStatus s
  | .rPoll1 => issueRead .status .busRdStatus s
  | .rPoll2 => issueRead .status .busRdStatus s
  | .rRead => issueRead .readData .busRdData s
  | .wSel =>
    match s.chAddr with
    | .undef => .settled (.fault (.undefRead .chAddr))
    | .val addr => .issue (.busSelW ((writeSelection addr).setWidth 7)) s
  | .rSel =>
    match s.chAddr, s.chI with
    | .undef, _ => .settled (.fault (.undefRead .chAddr))
    | .val _, .undef => .settled (.fault (.undefRead .chI))
    | .val addr, .val i => .issue (.busSelR ((readSelection addr i).setWidth 7)) s
  | .wData =>
    match s.chOut, s.chN, s.chI with
    | .undef, _, _ => .settled (.fault (.undefRead .chOut))
    | .val _, .undef, _ => .settled (.fault (.undefRead .chN))
    | .val _, .val _, .undef => .settled (.fault (.undefRead .chI))
    | .val out, .val n, .val i => .issue (.busWrData (byteAt out n.toNat i.toNat)) s

/-- An idle VRM takes the next command, or waits (60_exceptions.md R252, 70_reset_and_hazards.md R283). -/
def idleAgenda (s : State) : Agenda :=
  match s.env.port with
  | [] => .settled (.next s)
  | c :: rest => accept c rest s

/-- What a step without reset does. -/
def workAgenda (s : State) : Agenda :=
  match s.seqSt with
  | .idle => idleAgenda s
  | .run => channelEvent s
  | .wait => .settled (waitTick s)
  | .settle => .settled (settleTick s)

/-- What the next step does. Reset may come at any time, also while a command runs (70_reset_and_hazards.md R280). -/
def agenda (s : State) : Agenda :=
  if resetAsserted s then .settled (.next (vrmReset (sampleReset s))) else workAgenda (sampleReset s)

/-- A command of the client with zero operands: OPD 0 and OPV `Int(0)` (log 18). -/
def plainCommand (w : CmdWord) : Command := ⟨w, 0, .int 0⟩

/-- The port offers a command to an idle VRM, with reset not asserted (log 18). -/
def offerCommand (c : Command) (s : State) : State :=
  { s with
    env := { s.env with port := c :: s.env.port, resetPin := [] }
    seqSt := .idle
    chSt := .idle }

/-- The channel is at one step of a one-byte access at `addr`, with reset not asserted: `w` is the command that runs,
`out` the byte to write, `answers` the sensor's next answers (log 9). -/
def placeAt (st : ChSt) (w : CmdWord) (addr out : Byte) (answers : List Byte) (s : State) : State :=
  { s with
    env := { s.env with resetPin := [], sensorIn := answers ++ s.env.sensorIn }
    seqSt := .run
    seqCmd := .val (plainCommand w)
    chSt := st
    chAddr := .val addr
    chN := .val 1
    chI := .val 0
    chOut := .val (out.setWidth 192)
    chAcc := .val 0
    chPolls := 0 }

/-- The word of `VWRITE addr, 1` (30_encoding.md R91). -/
def oneByteWriteWord (addr : Byte) : CmdWord := packCommand 0x02 0 0 1 addr

/-- The word of `VREAD addr, 1` (30_encoding.md R91). -/
def oneByteReadWord (addr : Byte) : CmdWord := packCommand 0x01 0 0 1 addr

/-- The state whose next step issues the given bus event (log 9); a command leaves the state as it is. -/
def placeBusEvent (i : Instr) (s : State) : State :=
  match i with
  | .busRdStatus b => placeAt .wPoll1 (oneByteWriteWord 0) 0 0 [b] s
  | .busSelW a => placeAt .wSel (oneByteWriteWord (0#1 ++ a)) (0#1 ++ a) 0 [] s
  | .busSelR a => placeAt .rSel (oneByteReadWord (0#1 ++ a)) (0#1 ++ a) 0 [] s
  | .busWrData d => placeAt .wData (oneByteWriteWord 0) 0 d [] s
  | .busRdData d => placeAt .rRead (oneByteReadWord 0) 0 0 [d] s
  | .nop => s
  | .vread _ _ => s
  | .vwrite _ _ => s
  | .rdreg _ => s
  | .wrreg _ => s
  | .fdec _ _ => s
  | .fdecr _ _ => s
  | .fenc _ _ => s
  | .fins _ _ => s
  | .rdfld _ _ => s
  | .wrfld _ _ => s
  | .waitrdy => s
  | .sreset => s

end Sys2Proof.Machine
end

