-- ==== Sys2Proof/Machine/Step.lean ====
section
/-! DEFINITION. One step of the machine, and the placing of a word where the next step finds it. -/

namespace Sys2Proof.Machine

/-- One step: what `agenda` says, with `exec` for an instruction. A bus event, a time test, a reset, or a command's body up
to its first bus event (log 1). -/
def step (s : State) : Host.Outcome State Fault Refusal :=
  match agenda s with
  | .issue i t => exec i t
  | .settled r => r

/-- The state whose next step runs the given word: 16 bits or fewer are a bus word (log 9), more a command word on the
port (log 18). -/
def State.withFetchWord (s : State) (nbits w : Nat) : State :=
  if nbits ≤ 16 then
    match decodeTableWord nbits w with
    | none => s
    | some i => placeBusEvent i s
  else offerCommand (plainCommand (BitVec.ofNat 32 w)) s

end Sys2Proof.Machine
end

