-- ==== Sys2Proof/Safety.lean ====
section
/-! DEFINITION. What the claims call safe: the legal bus events and the sensor's pending write selection as TRACE shows it
(30_encoding.md R98, R99), the consistent states (every state a run from reset reaches), and a sensor's answers to one
virtual access. -/

namespace Sys2Proof.Machine

open Sys2Proof.Config (BusEvent)

/-- The rows of the command table: match, mask (30_encoding.md R91). -/
def commandRows : List (CmdWord × CmdWord) :=
  [(0x00000000, 0xFFFFFFFF), (0x08000000, 0xFFE000FF), (0x10000000, 0xFFE000FF), (0x18000000, 0xF8FFFFFF),
   (0x20000000, 0xF8FFFFFF), (0x28000000, 0xF81FFFFF), (0x30000000, 0xF81FFFFF), (0x38000000, 0xF81FFFFF),
   (0x40000000, 0xF81FFFFF), (0x48000000, 0xF81FFFFF), (0x50000000, 0xF81FFFFF), (0x58000000, 0xFFFFFFFF),
   (0x60000000, 0xFFFFFFFF)]

/-- A bus event of one of the five kinds (30_encoding.md R97, R99). -/
def legalEvent (e : BusEvent) : Bool :=
  match e.dir, e.preg with
  | .read, .status => true
  | .read, .readData => true
  | .write, .writePtr => true
  | .read, .writePtr => false
  | .write, .status => false
  | .write, .readData => false

/-- Whether a write selection waits for its data byte after one more event (30_encoding.md R98). -/
def pendingAfter (pending : Bool) (e : BusEvent) : Bool :=
  match e.dir with
  | .read => pending
  | .write => if pending then false else e.byte.getLsbD 7

/-- Whether TRACE ends with a write selection that has no data byte yet (30_encoding.md R98, 10_state.md R48). -/
def writePending (trace : List BusEvent) : Bool := trace.foldl pendingAfter false

/-- The channel is at a poll (41_channel.md R122). -/
def isPoll : ChSt → Bool
  | .wPoll1 => true
  | .wPoll2 => true
  | .rPoll1 => true
  | .rPoll2 => true
  | .idle => false
  | .wSel => false
  | .wData => false
  | .rSel => false
  | .rRead => false

/-- The channel is in a MemRead (41_channel.md R130). -/
def isReadPhase : ChSt → Bool
  | .rPoll1 => true
  | .rSel => true
  | .rPoll2 => true
  | .rRead => true
  | .idle => false
  | .wPoll1 => false
  | .wSel => false
  | .wPoll2 => false
  | .wData => false

/-- The channel is in a MemWrite (41_channel.md R128). -/
def isWritePhase : ChSt → Bool
  | .wPoll1 => true
  | .wSel => true
  | .wPoll2 => true
  | .wData => true
  | .idle => false
  | .rPoll1 => false
  | .rSel => false
  | .rPoll2 => false
  | .rRead => false

/-- The executing command makes a MemRead of `n` bytes at `addr`. -/
def readsAt (s : State) (c : Command) (addr : Byte) (n : BitVec 5) : Prop :=
  match decodeCommand c.cmd with
  | .error _ => False
  | .ok i =>
    match i with
    | .vread len a => len = n ∧ a = addr ∧ inRange len a = true
    | .rdreg reg => ∃ r, lookupRegister s.par.masks reg = .ok r ∧ r.addr = addr ∧ registerLen r = n
    | .rdfld reg fld => ∃ r f, lookupField s.par.masks reg fld = .ok (r, f) ∧ r.addr = addr ∧ registerLen r = n
    | .wrfld reg fld =>
      ∃ r f, lookupField s.par.masks reg fld = .ok (r, f) ∧ r.addr = addr ∧ registerLen r = n ∧ r.access = .rw ∧
        (fieldEncode f r.width c.opv).isSome = true
    | .waitrdy =>
      addr = controlAddr ∧ n = 1 ∧ (numericOperand c.opv).isSome = true ∧ s.seqT0 ≠ .undef
    | .sreset => addr = controlAddr ∧ n = 1
    | .nop => False
    | .vwrite _ _ => False
    | .wrreg _ => False
    | .fdec _ _ => False
    | .fdecr _ _ => False
    | .fenc _ _ => False
    | .fins _ _ => False
    | .busRdStatus _ => False
    | .busSelW _ => False
    | .busSelR _ => False
    | .busWrData _ => False
    | .busRdData _ => False

/-- The executing command makes a MemWrite of `n` bytes at `addr`. -/
def writesAt (s : State) (c : Command) (addr : Byte) (n : BitVec 5) : Prop :=
  match decodeCommand c.cmd with
  | .error _ => False
  | .ok i =>
    match i with
    | .vwrite len a => len = n ∧ a = addr ∧ inRange len a = true
    | .wrreg reg =>
      ∃ r, lookupRegister s.par.masks reg = .ok r ∧ r.addr = addr ∧ registerLen r = n ∧ r.access = .rw
    | .wrfld reg fld =>
      ∃ r f, lookupField s.par.masks reg fld = .ok (r, f) ∧ r.addr = addr ∧ registerLen r = n ∧ r.access = .rw
    | .sreset => addr = controlAddr ∧ n = 1
    | .nop => False
    | .vread _ _ => False
    | .rdreg _ => False
    | .fdec _ _ => False
    | .fdecr _ _ => False
    | .fenc _ _ => False
    | .fins _ _ => False
    | .rdfld _ _ => False
    | .waitrdy => False
    | .busRdStatus _ => False
    | .busSelW _ => False
    | .busSelR _ => False
    | .busWrData _ => False
    | .busRdData _ => False

/-- A channel at work holds everything its next events read (10_state.md R28), for a command that uses it. -/
def channelConsistent (s : State) : Prop :=
  ∃ c addr n i, s.seqCmd = .val c ∧ s.chAddr = .val addr ∧ s.chN = .val n ∧ s.chI = .val i ∧
    i.toNat < n.toNat ∧ n.toNat ≤ Config.maxLen ∧ addr.toNat + n.toNat ≤ Config.vaddrEnd ∧
    ((isReadPhase s.chSt = true ∧ readsAt s c addr n ∧ ∃ acc, s.chAcc = .val acc ∧ acc.toNat < 2 ^ (8 * i.toNat)) ∨
      (isWritePhase s.chSt = true ∧ writesAt s c addr n ∧
        ∃ out, s.chOut = .val out ∧ out.toNat < 2 ^ (8 * n.toNat)))

/-- The sequencer's state fits the channel's and the command's (10_state.md R29). -/
def sequencerConsistent (s : State) : Prop :=
  match s.seqSt with
  | .idle => s.chSt = .idle
  | .run => channelConsistent s
  | .wait =>
    s.chSt = .idle ∧
      ∃ c, s.seqCmd = .val c ∧ decodeCommand c.cmd = .ok .waitrdy ∧ (numericOperand c.opv).isSome = true ∧
        s.seqT0 ≠ .undef
  | .settle => s.chSt = .idle ∧ s.seqT0 ≠ .undef

/-- A snapshot that is held names a register of MAP and is a value of its width (10_state.md R27). -/
def snapshotConsistent (s : State) : Prop :=
  s.snapV = true →
    ∃ reg d r, s.snapR = .val reg ∧ s.snapD = .val d ∧ lookupRegister s.par.masks reg = .ok r ∧ d.toNat < 2 ^ r.width

/-- CH_POLLS counts the failed reads of a poll and stays under the bound (10_state.md R28, 41_channel.md R125). -/
def pollsConsistent (s : State) : Prop :=
  (isPoll s.chSt = false → s.chPolls = 0) ∧ ∀ l, s.par.pollLimit = .bound l → s.chPolls < max l 1

/-- The states of the machine as the spec means them: CFG_OK is the check's result, RSTAT a code of the table, FLOG's
unused bits 0, and channel, sequencer, polls and snapshot consistent. -/
structure State.Consistent (s : State) : Prop where
  cfg : s.cfgOk = (configCheck s.par.masks).isNone
  busy : s.seqSt ≠ .idle → s.cfgOk = true
  rstat : s.rstat.toNat ≤ 9
  flog : s.flog &&& 0xFC01 = 0
  sequencer : sequencerConsistent s
  polls : pollsConsistent s
  snapshot : snapshotConsistent s

/-- An idle VRM, reset not asserted, whose next command passes the configuration check and decodes to `i`
(60_exceptions.md R252). -/
def accepts (s : State) (c : Command) (rest : List Command) (i : Instr) : Prop :=
  resetAsserted s = false ∧ s.seqSt = .idle ∧ s.env.port = c :: rest ∧ s.cfgOk = true ∧ decodeCommand c.cmd = .ok i

/-- The channel is at the last data byte of a MemRead for the command `c` (41_channel.md R130). -/
def atLastReadByte (s : State) (c : Command) (i : Instr) (acc : Raw) : Prop :=
  s.chSt = .rRead ∧ s.chAcc = .val acc ∧ (∃ n k, s.chN = .val n ∧ s.chI = .val k ∧ k.toNat + 1 = n.toNat) ∧
    s.seqCmd = .val c ∧ decodeCommand c.cmd = .ok i

/-- The channel is at the last data byte of a MemWrite of `out` for the command `c` (41_channel.md R128). -/
def atLastWriteByte (s : State) (c : Command) (i : Instr) (out : Raw) (d : Byte) : Prop :=
  s.chSt = .wData ∧ s.chOut = .val out ∧
    (∃ n k, s.chN = .val n ∧ s.chI = .val k ∧ k.toNat + 1 = n.toNat ∧ byteAt out n.toNat k.toNat = d) ∧
    s.seqCmd = .val c ∧ decodeCommand c.cmd = .ok i

/-- A sensor's answers to the read handshake of one byte (41_channel.md R130): STATUS bytes that fail the first poll, the
one that satisfies it, those that fail the second, the one that satisfies it, and the byte read. -/
structure ReadPlan where
  busy : List Byte
  clear : Byte
  notReady : List Byte
  ready : Byte
  data : Byte
  deriving DecidableEq, Repr

/-- The plan's STATUS bytes are what their names say (41_channel.md R123, R124). -/
def ReadPlan.honest (p : ReadPlan) : Bool :=
  p.busy.all writeBusy && !writeBusy p.clear && p.notReady.all (fun b => !readReady b) && readReady p.ready

/-- No poll of the plan reaches the bound (41_channel.md R125). -/
def ReadPlan.withinBound (p : ReadPlan) (limit : Config.PollLimit) : Bool :=
  match limit with
  | .unbounded => true
  | .bound l => decide (p.busy.length < l) && decide (p.notReady.length < l)

/-- The sensor's answers of a plan, in order. -/
def ReadPlan.answers (p : ReadPlan) : List Byte := p.busy ++ [p.clear] ++ p.notReady ++ [p.ready, p.data]

/-- STATUS reads that return the given bytes. -/
def statusReads (bs : List Byte) : List BusEvent := bs.map fun b => ⟨.read, .status, b⟩

/-- The bus events of a plan whose read selection is the byte `sel` (41_channel.md R130, R131). -/
def ReadPlan.events (sel : Byte) (p : ReadPlan) : List BusEvent :=
  statusReads (p.busy ++ [p.clear]) ++ [⟨.write, .writePtr, sel⟩] ++ statusReads (p.notReady ++ [p.ready]) ++
    [⟨.read, .readData, p.data⟩]

/-- The bus events of a MemRead from `addr` up, one plan a byte (41_channel.md R130). -/
def readEvents : Byte → List ReadPlan → List BusEvent
  | _, [] => []
  | addr, p :: ps => p.events addr ++ readEvents (addr + 1) ps

/-- A sensor's answers to the write handshake of one byte (41_channel.md R128). -/
structure WritePlan where
  busy1 : List Byte
  clear1 : Byte
  busy2 : List Byte
  clear2 : Byte
  deriving DecidableEq, Repr

/-- The plan's STATUS bytes are what their names say (41_channel.md R123). -/
def WritePlan.honest (p : WritePlan) : Bool :=
  p.busy1.all writeBusy && !writeBusy p.clear1 && p.busy2.all writeBusy && !writeBusy p.clear2

/-- No poll of the plan reaches the bound (41_channel.md R125). -/
def WritePlan.withinBound (p : WritePlan) (limit : Config.PollLimit) : Bool :=
  match limit with
  | .unbounded => true
  | .bound l => decide (p.busy1.length < l) && decide (p.busy2.length < l)

/-- The sensor's answers of a plan, in order. -/
def WritePlan.answers (p : WritePlan) : List Byte := p.busy1 ++ [p.clear1] ++ p.busy2 ++ [p.clear2]

/-- The bus events of a plan that writes the byte `d` at `addr` (41_channel.md R128, R129). -/
def WritePlan.events (addr d : Byte) (p : WritePlan) : List BusEvent :=
  statusReads (p.busy1 ++ [p.clear1]) ++ [⟨.write, .writePtr, addr ||| 0x80⟩] ++
    statusReads (p.busy2 ++ [p.clear2]) ++ [⟨.write, .writePtr, d⟩]

/-- The bus events of a MemWrite of the given bytes, one plan a byte: every selection is the base address
(41_channel.md R128, R133). -/
def writeEvents (addr : Byte) : List Byte → List WritePlan → List BusEvent
  | d :: ds, p :: ps => p.events addr d ++ writeEvents addr ds ps
  | [], _ => []
  | _ :: _, [] => []

/-- The number of ones of a mask below bit `w`. -/
def onesBelow (w mask : Nat) : Nat := (List.range w).countP fun i => mask.testBit i

/-- The widths of the fields of each register, in index order (10_state.md R36–R42). -/
def fieldWidths : List (List Nat) :=
  [[8, 8, 16], [1, 1, 2, 2, 1], [8], [8], [2, 1, 2, 1], [16, 16, 16, 16, 16, 16], [32, 32, 32, 32, 32, 32]]

/-- The value of bytes, most significant first (20_memory.md R62). -/
def bytesValue (bs : List Byte) : Nat := bs.foldl (fun v b => v * 256 + b.toNat) 0

/-- The value of a finite pattern of a format with `p` bits of precision, in units of its least subnormal: the sense of
the IEEE-754 encodings (00_scope.md R9). -/
def patternValue (p pattern : Nat) : Nat :=
  if pattern / 2 ^ (p - 1) = 0 then pattern
  else (2 ^ (p - 1) + pattern % 2 ^ (p - 1)) * 2 ^ (pattern / 2 ^ (p - 1) - 1)

/-- `z` is the exact value ±(n/d)·2^−1074 rounded once to binary64 (00_scope.md R9): its sign bit and the pattern of its
magnitude, that of infinity on overflow. -/
def roundedTo (neg : Bool) (n d : Nat) (z : F64) : Prop :=
  z.getLsbD 63 = neg ∧ z.toNat % 2 ^ 63 = roundPattern 53 f64InfPattern n d

/-- Field `k` of a register, if it has one, is no failure of the configuration check (70_reset_and_hazards.md R281): its
mask is nonzero, within the width, disjoint from the masks of the fields before it, and one run of ones. -/
def fieldPasses (r : Config.Register) (k : Nat) : Prop :=
  ∀ f, r.fields[k]? = some f →
    f.mask ≠ 0 ∧ f.mask < 2 ^ r.width ∧ (∀ j g, j < k → r.fields[j]? = some g → f.mask &&& g.mask = 0) ∧
      ∃ t w, f.mask = (2 ^ w - 1) * 2 ^ t

end Sys2Proof.Machine
end

