-- ==== Sys2Proof/Certificates/Slice0/Obligations.lean ====
section
/-! DEFINITION. The statements for the provers. Each docstring names the rules of spec/ it formalises. -/

open Sys2Proof Sys2Proof.Machine
open Sys2Proof.Config (BusEvent PollLimit Field Register FieldMasks)

/-! ### Encoding -/

/-- 30_encoding.md R90, R91, R97, R98: every instruction, with every operand its encoding admits, decodes from its own
word. -/
def Obligations.EncodeThenDecode : Prop :=
  ∀ i : Instr, decode i.afterSelection (encode i) = .ok i

/-- 30_encoding.md R92, R97: a word that decodes is the word of the instruction it decodes to, so no bit is ignored. -/
def Obligations.DecodeThenEncode : Prop :=
  ∀ (pending : Bool) (e : Encoded) (i : Instr), decode pending e = .ok i → encode i = e

/-- 30_encoding.md R91, R92: the decoder accepts exactly the words of the table's rows, and no word meets two rows. -/
def Obligations.CommandTableDecides : Prop :=
  ∀ w : CmdWord,
    ((∃ i, decodeCommand w = .ok i) ↔ ∃ row ∈ commandRows, w &&& row.2 = row.1) ∧
      ∀ r1 ∈ commandRows, ∀ r2 ∈ commandRows, w &&& r1.2 = r1.1 → w &&& r2.2 = r2.1 → r1 = r2

/-- 30_encoding.md R91, R97: a few words, written out from the tables. That decodeTableWord takes a word of 16 bits or
fewer for a bus word, and a lone WRITE_PTR word for a selection, is the model's choice (log 9). -/
def Obligations.SampleWordsDecode : Prop :=
  decodeTableWord 32 0x00000000 = some .nop ∧ decodeTableWord 32 0x08186800 = some (.vread 24 0x68) ∧
    decodeTableWord 32 0x10010500 = some (.vwrite 1 0x05) ∧ decodeTableWord 32 0x22000000 = some (.wrreg 2) ∧
    decodeTableWord 32 0x2EA00000 = some (.fdec 6 5) ∧ decodeTableWord 32 0x51400000 = some (.wrfld 1 2) ∧
    decodeTableWord 32 0x60000000 = some .sreset ∧ decodeTableWord 32 0x68000000 = none ∧
    decodeTableWord 32 0x08010501 = none ∧ decodeTableWord 16 0x585 = some (.busSelW 5) ∧
    decodeTableWord 16 0x2FB = some (.busRdData 0xFB) ∧ decodeTableWord 16 0x300 = none ∧
    decodeBus true 0x505 = .ok (.busWrData 0x05) ∧ decodeBus false 0x505 = .ok (.busSelR 0x05)

/-! ### One step -/

/-- 60_exceptions.md R252: when the next command of an idle VRM decodes to an instruction, the step runs it, after taking
the command from the port and keeping it in SEQ_CMD. -/
def Obligations.StepRunsAcceptedCommand : Prop :=
  ∀ (s : State) (c : Command) (rest : List Command) (i : Instr), accepts s c rest i →
    step s = exec i
      { s with
        env := { s.env with port := rest, resetPin := s.env.resetPin.tail }
        seqSt := .run
        seqCmd := .val c }

/-- 41_channel.md R122: while a command runs, the step is the channel's next bus event, a read with the sensor's next
answer or, when none is chosen, with a free byte. -/
def Obligations.StepIssuesChannelEvent : Prop :=
  ∀ s : State, resetAsserted s = false → s.seqSt = .run →
    (∀ b rest, isPoll s.chSt = true → s.env.sensorIn = b :: rest →
        step s = exec (.busRdStatus b)
          { s with env := { s.env with resetPin := s.env.resetPin.tail, sensorIn := rest } }) ∧
      (∀ b rest, s.chSt = .rRead → s.env.sensorIn = b :: rest →
        step s = exec (.busRdData b)
          { s with env := { s.env with resetPin := s.env.resetPin.tail, sensorIn := rest } }) ∧
      (isPoll s.chSt = true → s.env.sensorIn = [] →
        ∃ b, step s = exec (.busRdStatus b)
          { s with env := { s.env with resetPin := s.env.resetPin.tail, sensorDraws := s.env.sensorDraws + 1 } }) ∧
      (s.chSt = .rRead → s.env.sensorIn = [] →
        ∃ b, step s = exec (.busRdData b)
          { s with env := { s.env with resetPin := s.env.resetPin.tail, sensorDraws := s.env.sensorDraws + 1 } }) ∧
      (∀ addr, s.chSt = .wSel → s.chAddr = .val addr →
        step s = exec (.busSelW (addr.setWidth 7))
          { s with env := { s.env with resetPin := s.env.resetPin.tail } }) ∧
      (∀ addr k, s.chSt = .rSel → s.chAddr = .val addr → s.chI = .val k →
        step s = exec (.busSelR ((addr + k.setWidth 8).setWidth 7))
          { s with env := { s.env with resetPin := s.env.resetPin.tail } }) ∧
      (∀ out n k, s.chSt = .wData → s.chOut = .val out → s.chN = .val n → s.chI = .val k →
        step s = exec (.busWrData ((out >>> (8 * (n.toNat - k.toNat - 1))).setWidth 8))
          { s with env := { s.env with resetPin := s.env.resetPin.tail } })

/-! ### Bus events -/

/-- 41_channel.md R122, R123, R124: a STATUS read that satisfies the poll ends it. Only write-busy (bit 1) counts at the
first three polls and only read-ready (bit 0) at the last. -/
def Obligations.StatusReadEndsPoll : Prop :=
  ∀ (s : State) (b : Byte),
    (s.chSt = .wPoll1 → b.getLsbD 1 = false → exec (.busRdStatus b) s =
        .next { s with trace := s.trace ++ [⟨.read, .status, b⟩], chSt := .wSel, chPolls := 0 }) ∧
      (s.chSt = .wPoll2 → b.getLsbD 1 = false → exec (.busRdStatus b) s =
        .next { s with trace := s.trace ++ [⟨.read, .status, b⟩], chSt := .wData, chPolls := 0 }) ∧
      (s.chSt = .rPoll1 → b.getLsbD 1 = false → exec (.busRdStatus b) s =
        .next { s with trace := s.trace ++ [⟨.read, .status, b⟩], chSt := .rSel, chPolls := 0 }) ∧
      (s.chSt = .rPoll2 → b.getLsbD 0 = true → exec (.busRdStatus b) s =
        .next { s with trace := s.trace ++ [⟨.read, .status, b⟩], chSt := .rRead, chPolls := 0 })

/-- 41_channel.md R123, R124, R125: a STATUS read that fails the poll, with no bound or under the bound, is counted and
the poll goes on. -/
def Obligations.StatusReadRepeatsPoll : Prop :=
  ∀ (s : State) (b : Byte),
    ((s.chSt = .wPoll1 ∨ s.chSt = .wPoll2 ∨ s.chSt = .rPoll1) ∧ b.getLsbD 1 = true ∨
        s.chSt = .rPoll2 ∧ b.getLsbD 0 = false) →
      (s.par.pollLimit = .unbounded ∨ ∃ l, s.par.pollLimit = .bound l ∧ s.chPolls + 1 < l) →
        exec (.busRdStatus b) s =
          .next { s with trace := s.trace ++ [⟨.read, .status, b⟩], chPolls := s.chPolls + 1 }

/-- 41_channel.md R123, R125, R134, 60_exceptions.md R253, R255, R256: the failing STATUS read that reaches the bound
raises DeviceUnresponsive, with the poll's state, CH_ADDR, CH_I and the last STATUS byte. -/
def Obligations.StatusReadRaisesDeviceUnresponsive : Prop :=
  ∀ (s : State) (b addr : Byte) (k : BitVec 5) (l : Nat),
    ((s.chSt = .wPoll1 ∨ s.chSt = .wPoll2 ∨ s.chSt = .rPoll1) ∧ b.getLsbD 1 = true ∨
        s.chSt = .rPoll2 ∧ b.getLsbD 0 = false) →
      s.par.pollLimit = .bound l → l ≤ s.chPolls + 1 → s.chAddr = .val addr → s.chI = .val k →
        exec (.busRdStatus b) s =
          .next
            { s with
              trace := s.trace ++ [⟨.read, .status, b⟩]
              chSt := .idle
              chPolls := 0
              rstat := 0x01
              flog := s.flog ||| 0x0002
              finfo := .val (.deviceUnresponsive s.chSt addr k b)
              seqSt := .idle
              cmdcnt := s.cmdcnt + 1 }

/-- 30_encoding.md R96, 41_channel.md R122, R128, R130: a write selection is the base address with bit 7 set; a read
selection is the base address plus the offset, bit 7 clear for an admitted access. The second poll follows. -/
def Obligations.SelectionEvents : Prop :=
  ∀ (s : State) (addr : Byte), s.chAddr = .val addr →
    (s.chSt = .wSel → exec (.busSelW (addr.setWidth 7)) s =
        .next { s with trace := s.trace ++ [⟨.write, .writePtr, addr ||| 0x80⟩], chSt := .wPoll2, chPolls := 0 }) ∧
      ∀ k : BitVec 5, s.chSt = .rSel → s.chI = .val k → addr.toNat + k.toNat < 0x80 →
        exec (.busSelR ((addr + k.setWidth 8).setWidth 7)) s =
          .next
            { s with
              trace := s.trace ++ [⟨.write, .writePtr, addr + k.setWidth 8⟩]
              chSt := .rPoll2
              chPolls := 0 }

/-- 41_channel.md R122, R127, R128, R130: a data byte that is not the last of its procedure goes out, or is shifted into
CH_ACC, and the next byte's first poll follows. -/
def Obligations.DataEventsGoOn : Prop :=
  ∀ (s : State) (n k : BitVec 5), s.chN = .val n → s.chI = .val k → k.toNat + 1 < n.toNat →
    (∀ out, s.chSt = .wData → s.chOut = .val out →
        exec (.busWrData ((out >>> (8 * (n.toNat - k.toNat - 1))).setWidth 8)) s =
          .next
            { s with
              trace := s.trace ++ [⟨.write, .writePtr, (out >>> (8 * (n.toNat - k.toNat - 1))).setWidth 8⟩]
              chSt := .wPoll1
              chPolls := 0
              chI := .val (k + 1) }) ∧
      ∀ acc d, s.chSt = .rRead → s.chAcc = .val acc →
        exec (.busRdData d) s =
          .next
            { s with
              trace := s.trace ++ [⟨.read, .readData, d⟩]
              chSt := .rPoll1
              chPolls := 0
              chAcc := .val ((acc <<< 8) ||| d.setWidth 192)
              chI := .val (k + 1) }

/-- 41_channel.md R136, 44_register_ops.md R214, R218, R222: the last data byte of a MemWrite ends a VWRITE (RSTAT only),
a WRREG or a WRFLD (RDATA too), and starts the settle of an SRESET with a reading of the time input. -/
def Obligations.LastDataWriteEndsCommand : Prop :=
  ∀ (s : State) (c : Command) (out : Raw) (d : Byte),
    (∀ len addr, atLastWriteByte s c (.vwrite len addr) out d → exec (.busWrData d) s =
        .next
          { s with
            trace := s.trace ++ [⟨.write, .writePtr, d⟩]
            chSt := .idle, chPolls := 0, rstat := 0, seqSt := .idle, cmdcnt := s.cmdcnt + 1 }) ∧
      (∀ i, (∃ reg, i = .wrreg reg) ∨ (∃ reg fld, i = .wrfld reg fld) → atLastWriteByte s c i out d →
        exec (.busWrData d) s =
          .next
            { s with
              trace := s.trace ++ [⟨.write, .writePtr, d⟩]
              rdata := .val out
              chSt := .idle, chPolls := 0, rstat := 0, seqSt := .idle, cmdcnt := s.cmdcnt + 1 }) ∧
      (∀ t rest, atLastWriteByte s c .sreset out d → s.env.timeIn = t :: rest → f64Finite t = true →
        extLe (f64Ext s.env.lastNow) (f64Ext t) = true →
          exec (.busWrData d) s =
            .next
              { s with
                trace := s.trace ++ [⟨.write, .writePtr, d⟩]
                rdata := .val out
                chSt := .idle, chPolls := 0
                seqSt := .settle
                seqT0 := .val t
                env := { s.env with timeIn := rest, lastNow := t } })

/-- 41_channel.md R135, 44_register_ops.md R210, R216: the last data byte of a MemRead ends a VREAD (RDATA), an RDREG
(RDATA and the snapshot) and an RDFLD (RDATA, the snapshot, and RVAL with the decoded field). Where the field's code has
no key, the RDFLD faults InvalidFieldValue of kind DECODE after RDATA and the snapshot are written, and leaves RVAL
(60_exceptions.md R254, R256, R269). -/
def Obligations.LastDataReadEndsCommand : Prop :=
  ∀ (s : State) (c : Command) (acc : Raw) (d : Byte),
    (∀ len addr, atLastReadByte s c (.vread len addr) acc → exec (.busRdData d) s =
        .next
          { s with
            trace := s.trace ++ [⟨.read, .readData, d⟩]
            chAcc := .val ((acc <<< 8) ||| d.setWidth 192)
            rdata := .val ((acc <<< 8) ||| d.setWidth 192)
            chSt := .idle, chPolls := 0, rstat := 0, seqSt := .idle, cmdcnt := s.cmdcnt + 1 }) ∧
      (∀ reg, atLastReadByte s c (.rdreg reg) acc → exec (.busRdData d) s =
        .next
          { s with
            trace := s.trace ++ [⟨.read, .readData, d⟩]
            chAcc := .val ((acc <<< 8) ||| d.setWidth 192)
            rdata := .val ((acc <<< 8) ||| d.setWidth 192)
            snapV := true, snapR := .val reg, snapD := .val ((acc <<< 8) ||| d.setWidth 192)
            chSt := .idle, chPolls := 0, rstat := 0, seqSt := .idle, cmdcnt := s.cmdcnt + 1 }) ∧
      (∀ reg fld r f, atLastReadByte s c (.rdfld reg fld) acc →
        lookupField s.par.masks reg fld = .ok (r, f) →
          (∀ x, fieldDecode f (((acc <<< 8) ||| d.setWidth 192).toNat % 2 ^ r.width) = some x →
            exec (.busRdData d) s =
              .next
                { s with
                  trace := s.trace ++ [⟨.read, .readData, d⟩]
                  chAcc := .val ((acc <<< 8) ||| d.setWidth 192)
                  rdata := .val ((acc <<< 8) ||| d.setWidth 192)
                  rval := x
                  snapV := true, snapR := .val reg, snapD := .val ((acc <<< 8) ||| d.setWidth 192)
                  chSt := .idle, chPolls := 0, rstat := 0, seqSt := .idle, cmdcnt := s.cmdcnt + 1 }) ∧
            (fieldDecode f (((acc <<< 8) ||| d.setWidth 192).toNat % 2 ^ r.width) = none →
              exec (.busRdData d) s =
                .next
                  { s with
                    trace := s.trace ++ [⟨.read, .readData, d⟩]
                    chAcc := .val ((acc <<< 8) ||| d.setWidth 192)
                    rdata := .val ((acc <<< 8) ||| d.setWidth 192)
                    snapV := true, snapR := .val reg, snapD := .val ((acc <<< 8) ||| d.setWidth 192)
                    chSt := .idle, chPolls := 0, rstat := 0x02, flog := s.flog ||| 0x0004
                    finfo := .val (.invalidFieldValue .decode reg fld
                      (.int (extractField f (((acc <<< 8) ||| d.setWidth 192).toNat % 2 ^ r.width))))
                    seqSt := .idle, cmdcnt := s.cmdcnt + 1 }))

/-- 44_register_ops.md R218, R222: the last data byte of the read of a WRFLD or an SRESET starts the write of the merged
value to the same register. -/
def Obligations.LastDataReadStartsMergedWrite : Prop :=
  ∀ (s : State) (c : Command) (acc : Raw) (d : Byte),
    (∀ reg fld r f bits, atLastReadByte s c (.wrfld reg fld) acc → lookupField s.par.masks reg fld = .ok (r, f) →
        fieldEncode f r.width c.opv = some bits →
          exec (.busRdData d) s =
            .next
              { s with
                trace := s.trace ++ [⟨.read, .readData, d⟩]
                chSt := .wPoll1, chPolls := 0
                chAddr := .val r.addr
                chN := .val (BitVec.ofNat 5 (r.width / 8))
                chI := .val 0
                chAcc := .val ((acc <<< 8) ||| d.setWidth 192)
                chOut := .val (BitVec.ofNat 192
                  (merge f r.width ((acc <<< 8) ||| d.setWidth 192).toNat bits %
                    2 ^ (8 * (BitVec.ofNat 5 (r.width / 8)).toNat))) }) ∧
      (∀ bits, atLastReadByte s c .sreset acc →
        fieldEncode (resetField s.par.masks) 8 (.int 1) = some bits →
          exec (.busRdData d) s =
            .next
              { s with
                trace := s.trace ++ [⟨.read, .readData, d⟩]
                chSt := .wPoll1, chPolls := 0
                chAddr := .val 0x04
                chN := .val 1
                chI := .val 0
                chAcc := .val ((acc <<< 8) ||| d.setWidth 192)
                chOut := .val (BitVec.ofNat 192
                  (merge (resetField s.par.masks) 8 ((acc <<< 8) ||| d.setWidth 192).toNat bits % 2 ^ 8)) })

/-- 44_register_ops.md R220: a WAITRDY poll takes the snapshot and RDATA; if data_ready reads 1 the command ends with
Int(1), whatever the time, and otherwise the time test follows. -/
def Obligations.WaitrdyPollReadsControl : Prop :=
  ∀ (s : State) (c : Command) (acc : Raw) (d : Byte) (v : Raw), v = (acc <<< 8) ||| d.setWidth 192 →
    atLastReadByte s c .waitrdy acc →
      (fieldDecode (dataReadyField s.par.masks) v.toNat = some (.int 1) → exec (.busRdData d) s =
          .next
            { s with
              trace := s.trace ++ [⟨.read, .readData, d⟩]
              chAcc := .val v, rdata := .val v, rval := .int 1
              snapV := true, snapR := .val 1, snapD := .val v
              chSt := .idle, chPolls := 0, rstat := 0, seqSt := .idle, cmdcnt := s.cmdcnt + 1 }) ∧
        (fieldDecode (dataReadyField s.par.masks) v.toNat ≠ some (.int 1) → exec (.busRdData d) s =
          .next
            { s with
              trace := s.trace ++ [⟨.read, .readData, d⟩]
              chAcc := .val v, rdata := .val v
              snapV := true, snapR := .val 1, snapD := .val v
              chSt := .idle, chPolls := 0, seqSt := .wait })

/-! ### Commands -/

/-- 44_register_ops.md R224: NOP is the word 0 alone, and writes RSTAT and the command count only. -/
def Obligations.NopWritesStatusOnly : Prop :=
  (∀ w : CmdWord, decodeCommand w = .ok .nop ↔ w = 0x00000000) ∧
    ∀ s : State, exec .nop s = .next { s with rstat := 0x00, seqSt := .idle, cmdcnt := s.cmdcnt + 1 }

/-- 41_channel.md R128, R130, R135, R136: VREAD and VWRITE of an admitted access start the channel; VWRITE sends the low
8·LEN bits of OPD. Nothing else changes. -/
def Obligations.ChannelCommandsStart : Prop :=
  ∀ (s : State) (c : Command) (len : BitVec 5) (addr : Byte),
    1 ≤ len.toNat → len.toNat ≤ 24 → addr.toNat + len.toNat ≤ 0x80 →
      exec (.vread len addr) s =
          .next
            { s with
              chSt := .rPoll1, chPolls := 0, chAddr := .val addr, chN := .val len, chI := .val 0
              chAcc := .val 0 } ∧
        (s.seqCmd = .val c → exec (.vwrite len addr) s =
          .next
            { s with
              chSt := .wPoll1, chPolls := 0, chAddr := .val addr, chN := .val len, chI := .val 0
              chOut := .val (BitVec.ofNat 192 (c.opd.toNat % 2 ^ (8 * len.toNat))) })

/-- 41_channel.md R126: outside the admitted range VREAD and VWRITE fault AddressRange with no bus event, and every
register of MAP is inside it. -/
def Obligations.AddressRangeRefusesAccess : Prop :=
  (∀ (s : State) (len : BitVec 5) (addr : Byte),
      ¬(1 ≤ len.toNat ∧ len.toNat ≤ 24 ∧ addr.toNat + len.toNat ≤ 0x80) →
        ∀ i, i = .vread len addr ∨ i = .vwrite len addr →
          exec i s =
            .next
              { s with
                chSt := .idle, chPolls := 0, rstat := 0x08, flog := s.flog ||| 0x0100
                finfo := .val (.addressRange addr len), seqSt := .idle, cmdcnt := s.cmdcnt + 1 }) ∧
    (∀ (s : State) (c : Command) (len : BitVec 5) (addr : Byte), s.seqCmd = .val c →
      1 ≤ len.toNat ∧ len.toNat ≤ 24 ∧ addr.toNat + len.toNat ≤ 0x80 →
        (∃ t, exec (.vread len addr) s = .next t ∧ t.chSt = .rPoll1 ∧ t.flog = s.flog) ∧
          ∃ t, exec (.vwrite len addr) s = .next t ∧ t.chSt = .wPoll1 ∧ t.flog = s.flog) ∧
    ∀ (m : FieldMasks), ∀ r ∈ Config.map m,
      1 ≤ r.width / 8 ∧ r.width / 8 ≤ 24 ∧ r.addr.toNat + r.width / 8 ≤ 0x80

/-- 44_register_ops.md R210, R216: RDREG and RDFLD read the register at its own address with its full width. -/
def Obligations.RegisterReadsStart : Prop :=
  ∀ (s : State) (reg fld : BitVec 3) (r : Register),
    (lookupRegister s.par.masks reg = .ok r → exec (.rdreg reg) s =
        .next
          { s with
            chSt := .rPoll1, chPolls := 0, chAddr := .val r.addr, chN := .val (BitVec.ofNat 5 (r.width / 8))
            chI := .val 0, chAcc := .val 0 }) ∧
      ∀ f, lookupField s.par.masks reg fld = .ok (r, f) → exec (.rdfld reg fld) s =
        .next
          { s with
            chSt := .rPoll1, chPolls := 0, chAddr := .val r.addr, chN := .val (BitVec.ofNat 5 (r.width / 8))
            chI := .val 0, chAcc := .val 0 }

/-- 42_codec.md R153, 44_register_ops.md R214: WRREG of a read-write register writes OPD mod 2^W, and drops the snapshot
if it holds that register. -/
def Obligations.WrregStartsMaskedWrite : Prop :=
  ∀ (s : State) (c : Command) (reg : BitVec 3) (r : Register), lookupRegister s.par.masks reg = .ok r →
    r.access = .rw → s.seqCmd = .val c →
      exec (.wrreg reg) s =
        .next
          { s with
            snapV := (if s.snapV = true ∧ s.snapR = .val reg then false else s.snapV)
            chSt := .wPoll1, chPolls := 0, chAddr := .val r.addr, chN := .val (BitVec.ofNat 5 (r.width / 8))
            chI := .val 0
            chOut := .val (BitVec.ofNat 192 (c.opd.toNat % 2 ^ r.width)) }

/-- 44_register_ops.md R218: WRFLD of a value that encodes reads the register afresh, and drops the snapshot if it holds
that register. -/
def Obligations.WrfldStartsFreshRead : Prop :=
  ∀ (s : State) (c : Command) (reg fld : BitVec 3) (r : Register) (f : Field) (bits : Nat),
    lookupField s.par.masks reg fld = .ok (r, f) → r.access = .rw → s.seqCmd = .val c →
      fieldEncode f r.width c.opv = some bits →
        exec (.wrfld reg fld) s =
          .next
            { s with
              snapV := (if s.snapV = true ∧ s.snapR = .val reg then false else s.snapV)
              chSt := .rPoll1, chPolls := 0, chAddr := .val r.addr, chN := .val (BitVec.ofNat 5 (r.width / 8))
              chI := .val 0, chAcc := .val 0 }

/-- 44_register_ops.md R212, R213: FDEC decodes its field from the held snapshot of its register into RVAL, with no bus
event, and leaves the snapshot; where the field's code has no key it faults InvalidFieldValue of kind DECODE and leaves
RVAL (60_exceptions.md R254, R256). -/
def Obligations.FdecDecodesSnapshot : Prop :=
  ∀ (s : State) (reg fld : BitVec 3) (r : Register) (f : Field) (d : Raw),
    lookupField s.par.masks reg fld = .ok (r, f) → s.snapV = true → s.snapR = .val reg → s.snapD = .val d →
      (∀ x, fieldDecode f (d.toNat % 2 ^ r.width) = some x → exec (.fdec reg fld) s =
          .next { s with rval := x, rstat := 0, seqSt := .idle, cmdcnt := s.cmdcnt + 1 }) ∧
        (fieldDecode f (d.toNat % 2 ^ r.width) = none → exec (.fdec reg fld) s =
          .next
            { s with
              chSt := .idle, chPolls := 0, rstat := 0x02, flog := s.flog ||| 0x0004
              finfo := .val (.invalidFieldValue .decode reg fld (.int (extractField f (d.toNat % 2 ^ r.width))))
              seqSt := .idle, cmdcnt := s.cmdcnt + 1 })

/-- 44_register_ops.md R212, 60_exceptions.md R250, R256: FDEC with no snapshot, or one of another register, faults
NoSnapshot. -/
def Obligations.FdecWithoutSnapshotFaults : Prop :=
  ∀ (s : State) (reg fld : BitVec 3) (p : Register × Field), lookupField s.par.masks reg fld = .ok p →
    (s.snapV = false ∨ s.snapR ≠ .val reg) →
      exec (.fdec reg fld) s =
        .next
          { s with
            chSt := .idle, chPolls := 0, rstat := 0x09, flog := s.flog ||| 0x0200
            finfo := .val (.noSnapshot reg s.snapV (if s.snapV = true then s.snapR else .undef))
            seqSt := .idle, cmdcnt := s.cmdcnt + 1 }

/-- 42_codec.md R156, R157, R158: FDECR, FENC and FINS compute on their operands alone: RVAL, or RDATA zero-extended.
FDECR of a code with no key faults InvalidFieldValue of kind DECODE and leaves RVAL (60_exceptions.md R254, R256); the
encodes that fail are UnencodableValueFaults. -/
def Obligations.CodecCommandsCompute : Prop :=
  ∀ (s : State) (c : Command) (reg fld : BitVec 3) (r : Register) (f : Field),
    lookupField s.par.masks reg fld = .ok (r, f) → s.seqCmd = .val c →
      (∀ x, fieldDecode f (c.opd.toNat % 2 ^ r.width) = some x → exec (.fdecr reg fld) s =
          .next { s with rval := x, rstat := 0, seqSt := .idle, cmdcnt := s.cmdcnt + 1 }) ∧
        (fieldDecode f (c.opd.toNat % 2 ^ r.width) = none → exec (.fdecr reg fld) s =
          .next
            { s with
              chSt := .idle, chPolls := 0, rstat := 0x02, flog := s.flog ||| 0x0004
              finfo := .val (.invalidFieldValue .decode reg fld (.int (extractField f (c.opd.toNat % 2 ^ r.width))))
              seqSt := .idle, cmdcnt := s.cmdcnt + 1 }) ∧
        (∀ bits, fieldEncode f r.width c.opv = some bits → exec (.fenc reg fld) s =
          .next
            { s with
              rdata := .val (BitVec.ofNat 192 bits), rstat := 0, seqSt := .idle, cmdcnt := s.cmdcnt + 1 }) ∧
        (∀ bits, fieldEncode f r.width c.opv = some bits → exec (.fins reg fld) s =
          .next
            { s with
              rdata := .val (BitVec.ofNat 192 (merge f r.width (c.opd.toNat % 2 ^ r.width) bits))
              rstat := 0, seqSt := .idle, cmdcnt := s.cmdcnt + 1 })

/-- 44_register_ops.md R220: WAITRDY with a numeric timeout reads the time and starts its first poll of CONTROL at once. -/
def Obligations.WaitrdyStartsFirstPoll : Prop :=
  ∀ (s : State) (c : Command) (t : F64) (rest : List F64), s.seqCmd = .val c →
    ((∃ n, c.opv = .int n) ∨ ∃ x, c.opv = .f64 x ∧ f64IsNaN x = false) →
      s.env.timeIn = t :: rest → f64Finite t = true → extLe (f64Ext s.env.lastNow) (f64Ext t) = true →
        exec .waitrdy s =
          .next
            { s with
              env := { s.env with timeIn := rest, lastNow := t }
              seqT0 := .val t, seqSt := .run
              chSt := .rPoll1, chPolls := 0, chAddr := .val 0x04, chN := .val 1, chI := .val 0
              chAcc := .val 0 }

/-- 44_register_ops.md R222: SRESET drops the snapshot before its first bus event and reads CONTROL. -/
def Obligations.SresetStartsRead : Prop :=
  ∀ s : State, exec .sreset s =
    .next
      { s with
        snapV := false
        chSt := .rPoll1, chPolls := 0, chAddr := .val 0x04, chN := .val 1, chI := .val 0, chAcc := .val 0 }

/-- 44_register_ops.md R220, R222, 70_reset_and_hazards.md R302: the two time tests. WAITRDY ends with Int(0) when the
elapsed time is strictly greater than its timeout and polls again otherwise; the settle ends when at least 2 s have
passed. Both subtract in binary64. The model's choices, no rule's: readings come from a list and one that is finite and
not before the last is taken (log 3); the difference is rounded once and compared exactly (log 17, DEDUCED). -/
def Obligations.TimeTestsEndWaits : Prop :=
  ∀ (s : State) (c : Command) (t0 t : F64) (rest : List F64) (limit : Ext), resetAsserted s = false →
    s.seqT0 = .val t0 → s.env.timeIn = t :: rest → f64Finite t = true →
      extLe (f64Ext s.env.lastNow) (f64Ext t) = true →
        (s.seqSt = .wait → s.seqCmd = .val c → numericOperand c.opv = some limit →
            step s =
              .next
                (if extLt limit (f64Ext (f64Sub t t0)) then
                  { s with
                    env := { s.env with resetPin := s.env.resetPin.tail, timeIn := rest, lastNow := t }
                    rval := .int 0, rstat := 0, seqSt := .idle, cmdcnt := s.cmdcnt + 1 }
                else
                  { s with
                    env := { s.env with resetPin := s.env.resetPin.tail, timeIn := rest, lastNow := t }
                    seqSt := .run
                    chSt := .rPoll1, chPolls := 0, chAddr := .val 0x04, chN := .val 1, chI := .val 0
                    chAcc := .val 0 })) ∧
          (s.seqSt = .settle →
            step s =
              .next
                (if extLe (.fin (2 * 2 ^ 1074)) (f64Ext (f64Sub t t0)) then
                  { s with
                    env := { s.env with resetPin := s.env.resetPin.tail, timeIn := rest, lastNow := t }
                    rstat := 0, seqSt := .idle, cmdcnt := s.cmdcnt + 1 }
                else
                  { s with
                    env := { s.env with resetPin := s.env.resetPin.tail, timeIn := rest, lastNow := t } }))

/-! ### Faults -/

/-- 42_codec.md R154, 60_exceptions.md R250, R255: a command that names no register, or no field of its register, faults
NoSuchRegister or NoSuchField, with no bus event. -/
def Obligations.MissingRegisterOrFieldFaults : Prop :=
  ∀ (s : State) (reg fld : BitVec 3),
    (7 ≤ reg.toNat →
        ∀ i ∈ [Instr.rdreg reg, .wrreg reg, .fdec reg fld, .fdecr reg fld, .fenc reg fld, .fins reg fld,
            .rdfld reg fld, .wrfld reg fld],
          exec i s =
            .next
              { s with
                chSt := .idle, chPolls := 0, rstat := 0x05, flog := s.flog ||| 0x0020
                finfo := .val (.noSuchRegister reg), seqSt := .idle, cmdcnt := s.cmdcnt + 1 }) ∧
      (∀ n, Config.fieldCounts[reg.toNat]? = some n → n ≤ fld.toNat →
        ∀ i ∈ [Instr.fdec reg fld, .fdecr reg fld, .fenc reg fld, .fins reg fld, .rdfld reg fld, .wrfld reg fld],
          exec i s =
            .next
              { s with
                chSt := .idle, chPolls := 0, rstat := 0x06, flog := s.flog ||| 0x0040
                finfo := .val (.noSuchField reg fld), seqSt := .idle, cmdcnt := s.cmdcnt + 1 })

/-- 44_register_ops.md R215, 60_exceptions.md R250, R257: WRREG of a read-only register, and WRFLD of a field it has, fault
ReadOnlyRegister before any encode and any bus event. WRFLD of a field it has not reports NoSuchField first
(MissingRegisterOrFieldFaults). -/
def Obligations.ReadOnlyRegisterRefusesWrites : Prop :=
  ∀ (s : State) (reg fld : BitVec 3) (r : Register), r.access = .ro →
    ∀ i, i = .wrreg reg ∧ lookupRegister s.par.masks reg = .ok r ∨
        i = .wrfld reg fld ∧ (∃ f, lookupField s.par.masks reg fld = .ok (r, f)) →
      exec i s =
        .next
          { s with
            chSt := .idle, chPolls := 0, rstat := 0x07, flog := s.flog ||| 0x0080
            finfo := .val (.readOnlyRegister reg), seqSt := .idle, cmdcnt := s.cmdcnt + 1 }

/-- 60_exceptions.md R254, R256, 44_register_ops.md R220: a value that its adapter cannot encode faults InvalidFieldValue
before any bus event, and so does a timeout that is not a number. The third kind, DECODE, stands beside the decodes it
ends: LastDataReadEndsCommand, FdecDecodesSnapshot and CodecCommandsCompute. -/
def Obligations.UnencodableValueFaults : Prop :=
  ∀ (s : State) (c : Command) (reg fld : BitVec 3) (r : Register) (f : Field), s.seqCmd = .val c →
    (lookupField s.par.masks reg fld = .ok (r, f) → fieldEncode f r.width c.opv = none →
        ∀ i, i = .fenc reg fld ∨ i = .fins reg fld ∨ i = .wrfld reg fld ∧ r.access = .rw →
          exec i s =
            .next
              { s with
                chSt := .idle, chPolls := 0, rstat := 0x02, flog := s.flog ||| 0x0004
                finfo := .val (.invalidFieldValue .encode reg fld c.opv), seqSt := .idle
                cmdcnt := s.cmdcnt + 1 }) ∧
      ((∀ n, c.opv ≠ .int n) → (∀ x, c.opv = .f64 x → f64IsNaN x = true) →
        exec .waitrdy s =
          .next
            { s with
              chSt := .idle, chPolls := 0, rstat := 0x02, flog := s.flog ||| 0x0004
              finfo := .val (.invalidFieldValue .timeout 1 4 c.opv), seqSt := .idle, cmdcnt := s.cmdcnt + 1 })

/-- 60_exceptions.md R251, R252, R257: while CFG_OK = 0 every command, legal or not, completes with MaskOverflow; while
CFG_OK = 1 a word with a reserved OP, or with a nonzero bit where its row has a zero, completes with IllegalCommand.
Neither issues a bus event. -/
def Obligations.AcceptanceFaults : Prop :=
  ∀ (s : State) (c : Command) (rest : List Command), resetAsserted s = false → s.seqSt = .idle →
    s.env.port = c :: rest →
      (∀ reg fld, s.cfgOk = false → configCheck s.par.masks = some (reg, fld) →
          step s =
            .next
              { s with
                env := { s.env with port := rest, resetPin := s.env.resetPin.tail }
                seqCmd := .val c
                chSt := .idle, chPolls := 0, rstat := 0x03, flog := s.flog ||| 0x0008
                finfo := .val (.maskOverflow reg fld), seqSt := .idle, cmdcnt := s.cmdcnt + 1 }) ∧
        (s.cfgOk = true → (∀ row ∈ commandRows, c.cmd &&& row.2 ≠ row.1) →
          step s =
            .next
              { s with
                env := { s.env with port := rest, resetPin := s.env.resetPin.tail }
                seqCmd := .val c
                chSt := .idle, chPolls := 0, rstat := 0x04, flog := s.flog ||| 0x0010
                finfo := .val (.illegalCommand c.cmd), seqSt := .idle, cmdcnt := s.cmdcnt + 1 })

/-! ### Reset and configuration -/

/-- 10_state.md R49: the values after reset. -/
def Obligations.ResetValues : Prop :=
  State.reset.rdata = .undef ∧ State.reset.rval = .undef ∧ State.reset.rstat = 0x00 ∧ State.reset.flog = 0x0000 ∧
    State.reset.finfo = .undef ∧ State.reset.snapV = false ∧ State.reset.snapR = .undef ∧
    State.reset.snapD = .undef ∧ State.reset.chSt = .idle ∧ State.reset.chPolls = 0 ∧ State.reset.chAddr = .undef ∧
    State.reset.chN = .undef ∧ State.reset.chI = .undef ∧ State.reset.chOut = .undef ∧ State.reset.chAcc = .undef ∧
    State.reset.seqSt = .idle ∧ State.reset.seqCmd = .undef ∧ State.reset.seqT0 = .undef ∧
    State.reset.cfgOk = (configCheck State.reset.par.masks).isNone ∧ State.reset.cmdcnt = 0 ∧ State.reset.trace = []

/-- 70_reset_and_hazards.md R280, 10_state.md R49: the reset input, asserted in any state, takes the VRM to its reset
values; the parameters and everything outside the VRM stay, but for the sample of the input. -/
def Obligations.ResetInputRestoresResetValues : Prop :=
  ∀ (s : State) (pins : List Bool), s.env.resetPin = true :: pins →
    step s =
      .next
        { State.reset with
          par := s.par
          env := { s.env with resetPin := pins }
          cfgOk := (configCheck s.par.masks).isNone }

/-- 70_reset_and_hazards.md R282: with the default masks every field passes the check, so CFG_OK is 1 after every reset;
CFG_OK is 0 after a reset only with other masks. -/
def Obligations.DefaultMasksPassCheck : Prop :=
  configCheck {} = none ∧ State.reset.cfgOk = true ∧
    ∀ s : State, (s.par.masks = {} → (vrmReset s).cfgOk = true) ∧ ((vrmReset s).cfgOk = false → s.par.masks ≠ {})

/-- 70_reset_and_hazards.md R281: the check passes exactly when in every register every mask is nonzero, within the
width, disjoint from the masks before it and one contiguous run of ones; and what it answers otherwise is the first field
that fails: every earlier field of its register and every field of an earlier register passes. -/
def Obligations.ConfigCheckDecidesMasks : Prop :=
  ∀ m : FieldMasks,
    (configCheck m = none ↔
        ∀ r ∈ Config.map m,
          (∀ f ∈ r.fields, f.mask ≠ 0 ∧ f.mask < 2 ^ r.width ∧ ∃ t w, f.mask = (2 ^ w - 1) * 2 ^ t) ∧
            r.fields.Pairwise fun f g => f.mask &&& g.mask = 0) ∧
      ∀ reg fld : BitVec 3, configCheck m = some (reg, fld) ↔
        ∃ r, (Config.map m)[reg.toNat]? = some r ∧ fld.toNat < r.fields.length ∧ ¬fieldPasses r fld.toNat ∧
          (∀ k < fld.toNat, fieldPasses r k) ∧
          ∀ i < reg.toNat, ∀ r', (Config.map m)[i]? = some r' → ∀ k, fieldPasses r' k

/-! ### Codec and adapters -/

/-- 42_codec.md R155: what every field of MAP has (with the default masks), and that writing one field never changes
another's decoded value, whatever masks pass the check. -/
def Obligations.FieldWriteKeepsOtherFields : Prop :=
  (∀ r ∈ Config.map {}, ∀ f ∈ r.fields, f.mask ≠ 0 ∧ f.mask < 2 ^ r.width ∧ contiguous f.mask = true) ∧
    (Config.map {}).map (fun r => r.fields.map fun f => onesBelow r.width f.mask) = fieldWidths ∧
    (∀ r ∈ Config.map {}, r.fields.Pairwise fun f g => f.mask &&& g.mask = 0) ∧
    ∀ (m : FieldMasks) (r : Register) (i j : Nat) (f g : Field) (old bits : Nat) (v : Sem),
      configCheck m = none → r ∈ Config.map m → r.fields[i]? = some f → r.fields[j]? = some g → i ≠ j →
        old < 2 ^ r.width → fieldEncode f r.width v = some bits →
          fieldDecode g (merge f r.width old bits) = fieldDecode g old

/-- 42_codec.md R150, R151, R152: a written field reads back as the encoded integer reduced to the field's width, for a
mask of `w` ones at position `t` inside the register. -/
def Obligations.WrittenFieldReadsBack : Prop :=
  ∀ (f : Field) (width t w old : Nat) (n : Int), 1 ≤ w → t + w ≤ width → f.mask = (2 ^ w - 1) * 2 ^ t →
    (extractField f (merge f width old (placeBits f width n)) : Int) = n % 2 ^ w

/-- 43_adapters.md R172: lookup decode is exact table lookup by code, and every 2-bit code of MAP's tables has a key. A
decode fails for a lookup code with no key only (60_exceptions.md R254). -/
def Obligations.LookupDecodeIsTableLookup : Prop :=
  (∀ (table : List (F64 × Nat)) (m : Nat), (table.map Prod.snd).Nodup →
      (∀ k, (k, m) ∈ table → lutDecode table m = some (.f64 k)) ∧
        ((∀ k, (k, m) ∉ table) → lutDecode table m = none)) ∧
    (∀ table ∈ [Config.gainTable, Config.illumTable, Config.indicTable], ∀ m < 4, (lutDecode table m).isSome = true) ∧
    ∀ (f : Field) (raw : Nat), fieldDecode f raw = none ↔
      ∃ table, f.adapter = .lut table ∧ ∀ k, (k, extractField f raw) ∉ table

/-- 43_adapters.md R174: lookup encode answers the code of a nearest key, of two nearest the smaller, clamped for the
infinities; NaN, the other tags and a table with no keys represent nothing. -/
def Obligations.LookupSnapsToNearestKey : Prop :=
  (∀ v, lutEncode [] v = none) ∧
    ∀ (table : List (F64 × Nat)), table ≠ [] → (∀ e ∈ table, f64Finite e.1 = true) →
      (∀ (v : Sem) (x : Int), numericOperand v = some (.fin x) →
          ∃ e ∈ table, lutEncode table v = some (e.2 : Int) ∧
            ∀ e' ∈ table, (x - f64Scaled e.1).natAbs < (x - f64Scaled e'.1).natAbs ∨
              (x - f64Scaled e.1).natAbs = (x - f64Scaled e'.1).natAbs ∧ f64Scaled e.1 ≤ f64Scaled e'.1) ∧
        (∀ v : Sem, numericOperand v = some .negInf →
          ∃ e ∈ table, lutEncode table v = some (e.2 : Int) ∧ ∀ e' ∈ table, f64Scaled e.1 ≤ f64Scaled e'.1) ∧
        (∀ v : Sem, numericOperand v = some .posInf →
          ∃ e ∈ table, lutEncode table v = some (e.2 : Int) ∧ ∀ e' ∈ table, f64Scaled e'.1 ≤ f64Scaled e.1) ∧
        (∀ v : Sem, ((∀ n, v ≠ .int n) ∧ ∀ x, v = .f64 x → f64IsNaN x = true) → lutEncode table v = none)

/-- 43_adapters.md R178: the consequences of the scale rules that a model must reproduce. -/
def Obligations.ScaleAdapterVectors : Prop :=
  scaleEncode Config.scaleK (.f64 0x4056800000000000) = some 251 ∧
    scaleDecode Config.scaleK 251 = .f64 0x4056692492492493 ∧
    scaleEncode Config.scaleK (.f64 0x4049000000000000) = some 140 ∧
    scaleDecode Config.scaleK 140 = .f64 0x4049000000000000 ∧
    scaleEncode Config.scaleK (.f64 0x40F869F000000000) = some 279997 ∧
    placeBits ⟨0xFF, .scale Config.scaleK⟩ 8 279997 = 189 ∧
    scaleDecode Config.scaleK 189 = .f64 0x4050E00000000000 ∧ scaleEncode Config.scaleK (.int (-1)) = some (-2) ∧
    placeBits ⟨0xFF, .scale Config.scaleK⟩ 8 (-2) = 254 ∧
    scaleEncode Config.scaleK (scaleDecode Config.scaleK 252) = some 251

/-- 00_scope.md R14, 90_conflicts.md C5: re-encoding a decoded integration time loses one for exactly 22 raw codes, and
after one more round trip every code is stable. -/
def Obligations.ScaleRoundTripSettles : Prop :=
  ∀ (v : Sem) (n : Int) (r : Nat), scaleEncode Config.scaleK v = some n → (r : Int) = n % 256 →
    ∃ r1 : Nat, scaleEncode Config.scaleK (scaleDecode Config.scaleK r) = some (r1 : Int) ∧
      (r1 = if r ∈ [3, 6, 12, 24, 48, 55, 63, 96, 103, 110, 119, 126, 185, 192, 199, 206, 213, 220, 231, 238, 245, 252]
        then r - 1 else r) ∧
      scaleEncode Config.scaleK (scaleDecode Config.scaleK r1) = some (r1 : Int)

/-- 00_scope.md R9: rounding is to the nearest value of the format, ties to the even pattern, for every precision of 2 bits
or more; binary64 and binary32 are `p` = 53 and 24. `n / d` counts units of the least subnormal. Infinity is answered
from half way between the greatest finite value and the next one up. The magnitude of a binary64 value is that of its
pattern, and `⊗`, `⊘`, the difference and `to_f64` are the exact result with its sign, rounded so and only once. The
formats are those of IEEE 754 (log 11). -/
def Obligations.RoundingIsNearestTiesToEven : Prop :=
  (∀ (p inf n d q : Nat), 2 ≤ p → 0 < d → roundPattern p inf n d < inf → q ≠ roundPattern p inf n d →
    ((patternValue p (roundPattern p inf n d) * d : Int) - n).natAbs < ((patternValue p q * d : Int) - n).natAbs ∨
      ((patternValue p (roundPattern p inf n d) * d : Int) - n).natAbs = ((patternValue p q * d : Int) - n).natAbs ∧
        roundPattern p inf n d % 2 = 0) ∧
    (∀ (p inf n d : Nat), 2 ≤ p → 0 < d → inf % 2 = 0 →
      (roundPattern p inf n d = inf ↔ (patternValue p (inf - 1) + patternValue p inf) * d ≤ 2 * n)) ∧
    (∀ z : F64, f64Mag z = patternValue 53 (z.toNat % 2 ^ 63)) ∧
    (∀ x y : F64, f64Finite x = true → f64Finite y = true →
      roundedTo (xor (f64Neg x) (f64Neg y)) (f64Mag x * f64Mag y) (2 ^ 1074) (f64Mul x y) ∧
        (f64Mag y ≠ 0 →
          roundedTo (xor (f64Neg x) (f64Neg y)) (f64Mag x * 2 ^ 1074) (f64Mag y) (f64Div x y)) ∧
        roundedTo
          (if f64Scaled x = f64Scaled y then f64Neg x && !f64Neg y else decide (f64Scaled x < f64Scaled y))
          (f64Scaled x - f64Scaled y).natAbs 1 (f64Sub x y)) ∧
    ∀ n : Int, roundedTo (decide (n < 0)) (n.natAbs * 2 ^ 1074) 1 (f64OfInt n)

/-- 43_adapters.md R179, R180, R184: a binary32 pattern passes decode and encode unchanged; NaN and the infinities have
their patterns; a finite value faults exactly when its magnitude is at least 2^128 − 2^103, and otherwise gives its sign
bit and its rounded magnitude; Ver and UNDEF fault. An integer encodes as its binary64 conversion, and faults where that
overflows: R254 and R184 as the model reads them beside R180 (log 23, DEDUCED). -/
def Obligations.Float32AdapterPatterns : Prop :=
  (∀ p : F32, adapterDecode .f32 p.toNat = some (.f32 p) ∧ adapterEncode .f32 (.f32 p) = some (p.toNat : Int)) ∧
    (∀ x : F64, f64IsNaN x = true → adapterEncode .f32 (.f64 x) = some 0x7FC00000) ∧
    (∀ x : F64, f64Ext x = .posInf → adapterEncode .f32 (.f64 x) = some 0x7F800000) ∧
    (∀ x : F64, f64Ext x = .negInf → adapterEncode .f32 (.f64 x) = some 0xFF800000) ∧
    (∀ x : F64, f64Finite x = true →
      (adapterEncode .f32 (.f64 x) = none ↔ (2 ^ 128 - 2 ^ 103) * 2 ^ 1074 ≤ f64Mag x)) ∧
    (∀ x : F64, f64Finite x = true → f64Mag x < (2 ^ 128 - 2 ^ 103) * 2 ^ 1074 →
      adapterEncode .f32 (.f64 x) =
        some (((if f64Neg x then 2 ^ 31 else 0) + roundPattern 24 f32InfPattern (f64Mag x) (2 ^ 925) : Nat) : Int)) ∧
    (∀ n : Int, f64Finite (f64OfInt n) = true →
      adapterEncode .f32 (.int n) = adapterEncode .f32 (.f64 (f64OfInt n))) ∧
    (∀ n : Int, f64Finite (f64OfInt n) = false → adapterEncode .f32 (.int n) = none) ∧
    (∀ a b c, adapterEncode .f32 (.ver a b c) = none) ∧ adapterEncode .f32 .undef = none

/-- 43_adapters.md R181: the firmware-version decode uses every bit of the 16-bit value exactly once. -/
def Obligations.FirmwareDecodeUsesEveryBit : Prop :=
  ∀ m : BitVec 16,
    adapterDecode .fwver m.toNat =
        some (.ver (m.extractLsb' 4 4) (m.extractLsb' 0 4 ++ m.extractLsb' 14 2) (m.extractLsb' 8 6)) ∧
      adapterDecode .fwver 0xFEFF = some (.ver 15 63 62) ∧
      ∀ m' : BitVec 16, adapterDecode .fwver m.toNat = adapterDecode .fwver m'.toNat → m = m'

/-- 43_adapters.md R183: the firmware-version encode always faults, so FENC and FINS of VERSION.fw_version always fault. -/
def Obligations.FirmwareEncodeAlwaysFaults : Prop :=
  (∀ v : Sem, adapterEncode .fwver v = none) ∧
    ∀ (s : State) (c : Command), s.seqCmd = .val c → ∀ i, i = .fenc 0 2 ∨ i = .fins 0 2 →
      ∃ t, exec i s = .next t ∧ t.rstat = 0x02 ∧ t.finfo = .val (.invalidFieldValue .encode 0 2 c.opv) ∧
        t.rdata = s.rdata ∧ t.trace = s.trace

/-! ### Whole-machine rules -/

/-- 10_state.md R31, 20_memory.md R71, 30_encoding.md R99: without reset, a step keeps TRACE and appends at most one
event, which is of one of the five kinds. -/
def Obligations.TraceGrowsByLegalEvents : Prop :=
  ∀ s t : State, resetAsserted s = false → step s = .next t →
    t.trace = s.trace ∨ ∃ e, t.trace = s.trace ++ [e] ∧ legalEvent e = true

/-- 10_state.md R21, R25, R26, R50, 60_exceptions.md R255: without reset, a step completes no command and leaves RSTAT,
FLOG and FINFO, or completes one: with RSTAT 0 and FLOG and FINFO unchanged, or with the code of a fault in RSTAT, its bit
set in FLOG and its record in FINFO. -/
def Obligations.CompletionWritesStatus : Prop :=
  ∀ s t : State, resetAsserted s = false → step s = .next t →
    (t.cmdcnt = s.cmdcnt ∧ t.rstat = s.rstat ∧ t.flog = s.flog ∧ t.finfo = s.finfo) ∨
      (t.cmdcnt = s.cmdcnt + 1 ∧ t.seqSt = .idle ∧
        ((t.rstat = 0 ∧ t.flog = s.flog ∧ t.finfo = s.finfo) ∨
          ∃ info : FaultInfo, t.rstat = info.code ∧ 1 ≤ info.code.toNat ∧ info.code.toNat ≤ 9 ∧
            (∀ k, t.flog.getLsbD k = (s.flog.getLsbD k || decide (k = info.code.toNat))) ∧ t.finfo = .val info))

/-- 10_state.md R26: a command that completes with a fault code sets that FLOG bit, no step but a reset clears one, reset
clears them all, and bits 0 and 10–15 stay 0. -/
def Obligations.FaultLogIsSticky : Prop :=
  State.reset.flog = 0 ∧
    ∀ s t : State, step s = .next t →
      (resetAsserted s = false → t.cmdcnt = s.cmdcnt + 1 → t.rstat ≠ 0 →
          ∀ k, t.flog.getLsbD k = (s.flog.getLsbD k || decide (k = t.rstat.toNat))) ∧
        (resetAsserted s = false → ∀ k, s.flog.getLsbD k = true → t.flog.getLsbD k = true) ∧
        (resetAsserted s = true → t.flog = 0) ∧ (s.flog &&& 0xFC01 = 0 → t.flog &&& 0xFC01 = 0)

/-- 10_state.md R27: without reset, a step leaves the snapshot, or the last byte of an RDREG, an RDFLD or a WAITRDY poll
takes it, or WRREG or WRFLD of the register it holds, or SRESET, clears SNAP_V alone. -/
def Obligations.SnapshotLifetime : Prop :=
  ∀ s t : State, resetAsserted s = false → step s = .next t →
    (t.snapV = s.snapV ∧ t.snapR = s.snapR ∧ t.snapD = s.snapD) ∨
      (s.chSt = .rRead ∧ t.snapV = true ∧ ∃ c reg v, s.seqCmd = .val c ∧ t.snapR = .val reg ∧ t.snapD = .val v ∧
        t.rdata = .val v ∧
        (decodeCommand c.cmd = .ok (.rdreg reg) ∨ (∃ fld, decodeCommand c.cmd = .ok (.rdfld reg fld)) ∨
          decodeCommand c.cmd = .ok .waitrdy ∧ reg = 1)) ∨
      (t.snapV = false ∧ t.snapR = s.snapR ∧ t.snapD = s.snapD ∧ s.seqSt = .idle ∧
        ∃ c, t.seqCmd = .val c ∧
          (decodeCommand c.cmd = .ok .sreset ∨
            ∃ reg, s.snapR = .val reg ∧
              (decodeCommand c.cmd = .ok (.wrreg reg) ∨ ∃ fld, decodeCommand c.cmd = .ok (.wrfld reg fld))))

/-- 44_register_ops.md R221, 10_state.md R46: no step changes the parameters or runs the time input backwards, as long as
its last reading is a number. -/
def Obligations.TimeAndParametersNeverGoBack : Prop :=
  ∀ s t : State, step s = .next t →
    t.par = s.par ∧
      (f64IsNaN s.env.lastNow = false →
        f64IsNaN t.env.lastNow = false ∧ extLe (f64Ext s.env.lastNow) (f64Ext t.env.lastNow) = true)

/-- 41_channel.md R121, 30_encoding.md R98: with no poll bound, a write selection is pending in TRACE exactly while the
channel is between that selection and its data byte, and every step keeps this: two handshakes never interleave. -/
def Obligations.HandshakesNeverInterleave : Prop :=
  ∀ s t : State, s.par.pollLimit = .unbounded →
    (s.seqSt ≠ .run → s.chSt = .idle) → (writePending s.trace = true ↔ s.chSt = .wPoll2 ∨ s.chSt = .wData) →
      step s = .next t →
        (t.seqSt ≠ .run → t.chSt = .idle) ∧ (writePending t.trace = true ↔ t.chSt = .wPoll2 ∨ t.chSt = .wData)

/-- The model never stops: from every consistent state a step answers a next state, and it is consistent. So no fault or
refusal of the model is met in a run from reset, whatever the client, the sensor, the time and the reset input do. -/
def Obligations.MachineNeverStops : Prop :=
  ∀ s : State, s.Consistent → ∃ t, step s = .next t ∧ t.Consistent

/-- The state after reset is consistent, and so is every state right after a reset with any parameters. -/
def Obligations.ResetIsConsistent : Prop :=
  State.reset.Consistent ∧ ∀ s : State, (vrmReset s).Consistent

/-! ### Runs of one procedure or command -/

/-- 41_channel.md R125: with no bound, a poll that keeps failing goes on for as many STATUS reads as the sensor fails it:
one event a read, no fault and no value. -/
def Obligations.StuckPollRunsOn : Prop :=
  ∀ (s : State) (bs tail : List Byte), s.env.resetPin = [] → s.seqSt = .run → s.par.pollLimit = .unbounded →
    s.env.sensorIn = bs ++ tail → (∀ b ∈ bs, pollSatisfied s.chSt b = some false) →
      Host.Core.run core bs.length s =
        .next
          { s with
            env := { s.env with sensorIn := tail }
            trace := s.trace ++ statusReads bs
            chPolls := s.chPolls + bs.length }

/-- 41_channel.md R125, 60_exceptions.md R253: with bound L a poll that fails L times issues exactly L STATUS reads and
raises DeviceUnresponsive at the last of them. -/
def Obligations.BoundedPollFaultsAtBound : Prop :=
  ∀ (s : State) (bs tail : List Byte) (b addr : Byte) (k : BitVec 5), s.env.resetPin = [] → s.seqSt = .run →
    s.chPolls = 0 → s.par.pollLimit = .bound (bs.length + 1) → s.env.sensorIn = bs ++ b :: tail →
      (∀ x ∈ bs ++ [b], pollSatisfied s.chSt x = some false) → s.chAddr = .val addr → s.chI = .val k →
        Host.Core.run core (bs.length + 1) s =
          .next
            { s with
              env := { s.env with sensorIn := tail }
              trace := s.trace ++ statusReads (bs ++ [b])
              chSt := .idle, chPolls := 0, rstat := 0x01, flog := s.flog ||| 0x0002
              finfo := .val (.deviceUnresponsive s.chSt addr k b), seqSt := .idle, cmdcnt := s.cmdcnt + 1 }

/-- 41_channel.md R130, 20_memory.md R62: a MemRead, whatever STATUS answers its polls get before they are satisfied,
issues per byte its polls, its selection and its data read, and returns the bytes most significant first to its
command. -/
def Obligations.MemReadReturnsBytes : Prop :=
  ∀ (u : State) (addr : Byte) (n : BitVec 5) (plans : List ReadPlan) (tail : List Byte), u.env.resetPin = [] →
    u.seqSt = .run → plans ≠ [] → plans.length = n.toNat → n.toNat ≤ 24 → addr.toNat + n.toNat ≤ 0x80 →
      (∀ p ∈ plans, p.honest = true ∧ p.withinBound u.par.pollLimit = true) →
        u.env.sensorIn = plans.flatMap ReadPlan.answers ++ tail →
          Host.Core.run core (readEvents addr plans).length (startRead addr n u) =
            readReturn (BitVec.ofNat 192 (bytesValue (plans.map ReadPlan.data)))
              { u with
                env := { u.env with sensorIn := tail }
                trace := u.trace ++ readEvents addr plans
                chSt := .idle, chPolls := 0, chAddr := .val addr, chN := .val n, chI := .val (n - 1)
                chAcc := .val (BitVec.ofNat 192 (bytesValue (plans.map ReadPlan.data))) }

/-- 41_channel.md R128, 20_memory.md R62: a MemWrite sends the value's bytes, most significant first, each after its own
selection of the base address, and returns to its command. -/
def Obligations.MemWriteSendsBytes : Prop :=
  ∀ (u : State) (addr : Byte) (n : BitVec 5) (ds : List Byte) (plans : List WritePlan) (tail : List Byte),
    u.env.resetPin = [] → u.seqSt = .run → plans ≠ [] → plans.length = n.toNat → ds.length = n.toNat →
      n.toNat ≤ 24 → addr.toNat + n.toNat ≤ 0x80 →
        (∀ p ∈ plans, p.honest = true ∧ p.withinBound u.par.pollLimit = true) →
          u.env.sensorIn = plans.flatMap WritePlan.answers ++ tail →
            Host.Core.run core (writeEvents addr ds plans).length (startWrite addr n (bytesValue ds) u) =
              writeReturn (BitVec.ofNat 192 (bytesValue ds))
                { u with
                  env := { u.env with sensorIn := tail }
                  trace := u.trace ++ writeEvents addr ds plans
                  chSt := .idle, chPolls := 0, chAddr := .val addr, chN := .val n, chI := .val (n - 1)
                  chOut := .val (BitVec.ofNat 192 (bytesValue ds)) }

/-- 41_channel.md R135, R130: a whole VREAD, from the port to its completion. -/
def Obligations.VreadRunsToCompletion : Prop :=
  ∀ (s : State) (c : Command) (rest : List Command) (len : BitVec 5) (addr : Byte) (plans : List ReadPlan)
      (tail : List Byte),
    s.env.resetPin = [] → accepts s c rest (.vread len addr) → plans.length = len.toNat → 1 ≤ len.toNat →
      len.toNat ≤ 24 → addr.toNat + len.toNat ≤ 0x80 →
        (∀ p ∈ plans, p.honest = true ∧ p.withinBound s.par.pollLimit = true) →
          s.env.sensorIn = plans.flatMap ReadPlan.answers ++ tail →
            Host.Core.run core (1 + (readEvents addr plans).length) s =
              .next
                { s with
                  env := { s.env with port := rest, sensorIn := tail }
                  rdata := .val (BitVec.ofNat 192 (bytesValue (plans.map ReadPlan.data)))
                  rstat := 0
                  chSt := .idle, chPolls := 0, chAddr := .val addr, chN := .val len, chI := .val (len - 1)
                  chAcc := .val (BitVec.ofNat 192 (bytesValue (plans.map ReadPlan.data)))
                  seqSt := .idle, seqCmd := .val c, cmdcnt := s.cmdcnt + 1
                  trace := s.trace ++ readEvents addr plans }

/-- 44_register_ops.md R219: a WRFLD of a one-byte register issues, when every poll is satisfied at its first read,
exactly 8 events, and ends with the merged value in RDATA. -/
def Obligations.WrfldIssuesEightEvents : Prop :=
  ∀ (s : State) (c : Command) (rest : List Command) (reg fld : BitVec 3) (r : Register) (f : Field) (bits : Nat)
      (s1 s2 s3 s4 d : Byte) (tail : List Byte),
    s.env.resetPin = [] → accepts s c rest (.wrfld reg fld) → lookupField s.par.masks reg fld = .ok (r, f) →
      r.width = 8 → r.access = .rw → fieldEncode f r.width c.opv = some bits →
        s1.getLsbD 1 = false → s2.getLsbD 0 = true → s3.getLsbD 1 = false → s4.getLsbD 1 = false →
          s.env.sensorIn = [s1, s2, d, s3, s4] ++ tail →
            ∃ t, Host.Core.run core 9 s = .next t ∧
              t.trace = s.trace ++
                [⟨.read, .status, s1⟩, ⟨.write, .writePtr, r.addr⟩, ⟨.read, .status, s2⟩, ⟨.read, .readData, d⟩,
                  ⟨.read, .status, s3⟩, ⟨.write, .writePtr, r.addr ||| 0x80⟩, ⟨.read, .status, s4⟩,
                  ⟨.write, .writePtr, BitVec.ofNat 8 (merge f 8 d.toNat bits)⟩] ∧
              t.rdata = .val (BitVec.ofNat 192 (merge f 8 d.toNat bits)) ∧ t.rstat = 0 ∧ t.seqSt = .idle ∧
              t.cmdcnt = s.cmdcnt + 1 ∧ t.env.port = rest ∧ t.env.sensorIn = tail ∧ t.flog = s.flog ∧
              t.finfo = s.finfo ∧ t.rval = s.rval

/-- 44_register_ops.md R217: RDFLD has the effect of RDREG followed by FDEC of the same register and field: where the last
byte of a MemRead ends an RDFLD, the same byte ends an RDREG, and an FDEC right after it leaves the same latches, snapshot
and bus events, whether the field decodes or the decode faults. -/
def Obligations.RdfldIsRdregThenFdec : Prop :=
  ∀ (s : State) (c c' : Command) (reg fld : BitVec 3) (p : Register × Field) (acc : Raw) (d : Byte),
    atLastReadByte s c (.rdfld reg fld) acc → decodeCommand c'.cmd = .ok (.rdreg reg) →
      lookupField s.par.masks reg fld = .ok p →
        ∃ t u w, exec (.busRdData d) s = .next t ∧ exec (.busRdData d) { s with seqCmd := .val c' } = .next u ∧
          exec (.fdec reg fld) u = .next w ∧ w.response = t.response ∧ w.snapV = t.snapV ∧ w.snapR = t.snapR ∧
            w.snapD = t.snapD ∧ w.trace = t.trace ∧ w.flog = t.flog ∧ w.env = t.env ∧ w.seqSt = t.seqSt
end

