-- ==== Sys2Proof/Laws/State.lean ====
section
/-! SUPPORT. What each field is after each state update of the machine: one lemma a field and update, all by rfl. -/

namespace Sys2Proof.Machine

@[simp] theorem complete_par (s : State) : (complete s).par = s.par := rfl
@[simp] theorem complete_env (s : State) : (complete s).env = s.env := rfl
@[simp] theorem complete_rdata (s : State) : (complete s).rdata = s.rdata := rfl
@[simp] theorem complete_rval (s : State) : (complete s).rval = s.rval := rfl
@[simp] theorem complete_rstat (s : State) : (complete s).rstat = s.rstat := rfl
@[simp] theorem complete_flog (s : State) : (complete s).flog = s.flog := rfl
@[simp] theorem complete_finfo (s : State) : (complete s).finfo = s.finfo := rfl
@[simp] theorem complete_snapV (s : State) : (complete s).snapV = s.snapV := rfl
@[simp] theorem complete_snapR (s : State) : (complete s).snapR = s.snapR := rfl
@[simp] theorem complete_snapD (s : State) : (complete s).snapD = s.snapD := rfl
@[simp] theorem complete_chSt (s : State) : (complete s).chSt = s.chSt := rfl
@[simp] theorem complete_chAddr (s : State) : (complete s).chAddr = s.chAddr := rfl
@[simp] theorem complete_chN (s : State) : (complete s).chN = s.chN := rfl
@[simp] theorem complete_chI (s : State) : (complete s).chI = s.chI := rfl
@[simp] theorem complete_chOut (s : State) : (complete s).chOut = s.chOut := rfl
@[simp] theorem complete_chAcc (s : State) : (complete s).chAcc = s.chAcc := rfl
@[simp] theorem complete_chPolls (s : State) : (complete s).chPolls = s.chPolls := rfl
@[simp] theorem complete_seqSt (s : State) : (complete s).seqSt = .idle := rfl
@[simp] theorem complete_seqCmd (s : State) : (complete s).seqCmd = s.seqCmd := rfl
@[simp] theorem complete_seqT0 (s : State) : (complete s).seqT0 = s.seqT0 := rfl
@[simp] theorem complete_cfgOk (s : State) : (complete s).cfgOk = s.cfgOk := rfl
@[simp] theorem complete_cmdcnt (s : State) : (complete s).cmdcnt = s.cmdcnt + 1 := rfl
@[simp] theorem complete_trace (s : State) : (complete s).trace = s.trace := rfl

@[simp] theorem finishOk_par (s : State) : (finishOk s).par = s.par := rfl
@[simp] theorem finishOk_env (s : State) : (finishOk s).env = s.env := rfl
@[simp] theorem finishOk_rdata (s : State) : (finishOk s).rdata = s.rdata := rfl
@[simp] theorem finishOk_rval (s : State) : (finishOk s).rval = s.rval := rfl
@[simp] theorem finishOk_rstat (s : State) : (finishOk s).rstat = statusOk := rfl
@[simp] theorem finishOk_flog (s : State) : (finishOk s).flog = s.flog := rfl
@[simp] theorem finishOk_finfo (s : State) : (finishOk s).finfo = s.finfo := rfl
@[simp] theorem finishOk_snapV (s : State) : (finishOk s).snapV = s.snapV := rfl
@[simp] theorem finishOk_snapR (s : State) : (finishOk s).snapR = s.snapR := rfl
@[simp] theorem finishOk_snapD (s : State) : (finishOk s).snapD = s.snapD := rfl
@[simp] theorem finishOk_chSt (s : State) : (finishOk s).chSt = s.chSt := rfl
@[simp] theorem finishOk_chAddr (s : State) : (finishOk s).chAddr = s.chAddr := rfl
@[simp] theorem finishOk_chN (s : State) : (finishOk s).chN = s.chN := rfl
@[simp] theorem finishOk_chI (s : State) : (finishOk s).chI = s.chI := rfl
@[simp] theorem finishOk_chOut (s : State) : (finishOk s).chOut = s.chOut := rfl
@[simp] theorem finishOk_chAcc (s : State) : (finishOk s).chAcc = s.chAcc := rfl
@[simp] theorem finishOk_chPolls (s : State) : (finishOk s).chPolls = s.chPolls := rfl
@[simp] theorem finishOk_seqSt (s : State) : (finishOk s).seqSt = .idle := rfl
@[simp] theorem finishOk_seqCmd (s : State) : (finishOk s).seqCmd = s.seqCmd := rfl
@[simp] theorem finishOk_seqT0 (s : State) : (finishOk s).seqT0 = s.seqT0 := rfl
@[simp] theorem finishOk_cfgOk (s : State) : (finishOk s).cfgOk = s.cfgOk := rfl
@[simp] theorem finishOk_cmdcnt (s : State) : (finishOk s).cmdcnt = s.cmdcnt + 1 := rfl
@[simp] theorem finishOk_trace (s : State) : (finishOk s).trace = s.trace := rfl

@[simp] theorem raise_par (info : FaultInfo) (s : State) : (raise info s).par = s.par := rfl
@[simp] theorem raise_env (info : FaultInfo) (s : State) : (raise info s).env = s.env := rfl
@[simp] theorem raise_rdata (info : FaultInfo) (s : State) : (raise info s).rdata = s.rdata := rfl
@[simp] theorem raise_rval (info : FaultInfo) (s : State) : (raise info s).rval = s.rval := rfl
@[simp] theorem raise_rstat (info : FaultInfo) (s : State) : (raise info s).rstat = info.code := rfl
@[simp] theorem raise_flog (info : FaultInfo) (s : State) : (raise info s).flog = logFault s.flog info.code := rfl
@[simp] theorem raise_finfo (info : FaultInfo) (s : State) : (raise info s).finfo = .val info := rfl
@[simp] theorem raise_snapV (info : FaultInfo) (s : State) : (raise info s).snapV = s.snapV := rfl
@[simp] theorem raise_snapR (info : FaultInfo) (s : State) : (raise info s).snapR = s.snapR := rfl
@[simp] theorem raise_snapD (info : FaultInfo) (s : State) : (raise info s).snapD = s.snapD := rfl
@[simp] theorem raise_chSt (info : FaultInfo) (s : State) : (raise info s).chSt = .idle := rfl
@[simp] theorem raise_chAddr (info : FaultInfo) (s : State) : (raise info s).chAddr = s.chAddr := rfl
@[simp] theorem raise_chN (info : FaultInfo) (s : State) : (raise info s).chN = s.chN := rfl
@[simp] theorem raise_chI (info : FaultInfo) (s : State) : (raise info s).chI = s.chI := rfl
@[simp] theorem raise_chOut (info : FaultInfo) (s : State) : (raise info s).chOut = s.chOut := rfl
@[simp] theorem raise_chAcc (info : FaultInfo) (s : State) : (raise info s).chAcc = s.chAcc := rfl
@[simp] theorem raise_chPolls (info : FaultInfo) (s : State) : (raise info s).chPolls = 0 := rfl
@[simp] theorem raise_seqSt (info : FaultInfo) (s : State) : (raise info s).seqSt = .idle := rfl
@[simp] theorem raise_seqCmd (info : FaultInfo) (s : State) : (raise info s).seqCmd = s.seqCmd := rfl
@[simp] theorem raise_seqT0 (info : FaultInfo) (s : State) : (raise info s).seqT0 = s.seqT0 := rfl
@[simp] theorem raise_cfgOk (info : FaultInfo) (s : State) : (raise info s).cfgOk = s.cfgOk := rfl
@[simp] theorem raise_cmdcnt (info : FaultInfo) (s : State) : (raise info s).cmdcnt = s.cmdcnt + 1 := rfl
@[simp] theorem raise_trace (info : FaultInfo) (s : State) : (raise info s).trace = s.trace := rfl

@[simp] theorem emit_par (e : Config.BusEvent) (s : State) : (emit e s).par = s.par := rfl
@[simp] theorem emit_env (e : Config.BusEvent) (s : State) : (emit e s).env = s.env := rfl
@[simp] theorem emit_rdata (e : Config.BusEvent) (s : State) : (emit e s).rdata = s.rdata := rfl
@[simp] theorem emit_rval (e : Config.BusEvent) (s : State) : (emit e s).rval = s.rval := rfl
@[simp] theorem emit_rstat (e : Config.BusEvent) (s : State) : (emit e s).rstat = s.rstat := rfl
@[simp] theorem emit_flog (e : Config.BusEvent) (s : State) : (emit e s).flog = s.flog := rfl
@[simp] theorem emit_finfo (e : Config.BusEvent) (s : State) : (emit e s).finfo = s.finfo := rfl
@[simp] theorem emit_snapV (e : Config.BusEvent) (s : State) : (emit e s).snapV = s.snapV := rfl
@[simp] theorem emit_snapR (e : Config.BusEvent) (s : State) : (emit e s).snapR = s.snapR := rfl
@[simp] theorem emit_snapD (e : Config.BusEvent) (s : State) : (emit e s).snapD = s.snapD := rfl
@[simp] theorem emit_chSt (e : Config.BusEvent) (s : State) : (emit e s).chSt = s.chSt := rfl
@[simp] theorem emit_chAddr (e : Config.BusEvent) (s : State) : (emit e s).chAddr = s.chAddr := rfl
@[simp] theorem emit_chN (e : Config.BusEvent) (s : State) : (emit e s).chN = s.chN := rfl
@[simp] theorem emit_chI (e : Config.BusEvent) (s : State) : (emit e s).chI = s.chI := rfl
@[simp] theorem emit_chOut (e : Config.BusEvent) (s : State) : (emit e s).chOut = s.chOut := rfl
@[simp] theorem emit_chAcc (e : Config.BusEvent) (s : State) : (emit e s).chAcc = s.chAcc := rfl
@[simp] theorem emit_chPolls (e : Config.BusEvent) (s : State) : (emit e s).chPolls = s.chPolls := rfl
@[simp] theorem emit_seqSt (e : Config.BusEvent) (s : State) : (emit e s).seqSt = s.seqSt := rfl
@[simp] theorem emit_seqCmd (e : Config.BusEvent) (s : State) : (emit e s).seqCmd = s.seqCmd := rfl
@[simp] theorem emit_seqT0 (e : Config.BusEvent) (s : State) : (emit e s).seqT0 = s.seqT0 := rfl
@[simp] theorem emit_cfgOk (e : Config.BusEvent) (s : State) : (emit e s).cfgOk = s.cfgOk := rfl
@[simp] theorem emit_cmdcnt (e : Config.BusEvent) (s : State) : (emit e s).cmdcnt = s.cmdcnt := rfl
@[simp] theorem emit_trace (e : Config.BusEvent) (s : State) : (emit e s).trace = s.trace ++ [e] := rfl

@[simp] theorem enter_par (st : ChSt) (s : State) : (enter st s).par = s.par := rfl
@[simp] theorem enter_env (st : ChSt) (s : State) : (enter st s).env = s.env := rfl
@[simp] theorem enter_rdata (st : ChSt) (s : State) : (enter st s).rdata = s.rdata := rfl
@[simp] theorem enter_rval (st : ChSt) (s : State) : (enter st s).rval = s.rval := rfl
@[simp] theorem enter_rstat (st : ChSt) (s : State) : (enter st s).rstat = s.rstat := rfl
@[simp] theorem enter_flog (st : ChSt) (s : State) : (enter st s).flog = s.flog := rfl
@[simp] theorem enter_finfo (st : ChSt) (s : State) : (enter st s).finfo = s.finfo := rfl
@[simp] theorem enter_snapV (st : ChSt) (s : State) : (enter st s).snapV = s.snapV := rfl
@[simp] theorem enter_snapR (st : ChSt) (s : State) : (enter st s).snapR = s.snapR := rfl
@[simp] theorem enter_snapD (st : ChSt) (s : State) : (enter st s).snapD = s.snapD := rfl
@[simp] theorem enter_chSt (st : ChSt) (s : State) : (enter st s).chSt = st := rfl
@[simp] theorem enter_chAddr (st : ChSt) (s : State) : (enter st s).chAddr = s.chAddr := rfl
@[simp] theorem enter_chN (st : ChSt) (s : State) : (enter st s).chN = s.chN := rfl
@[simp] theorem enter_chI (st : ChSt) (s : State) : (enter st s).chI = s.chI := rfl
@[simp] theorem enter_chOut (st : ChSt) (s : State) : (enter st s).chOut = s.chOut := rfl
@[simp] theorem enter_chAcc (st : ChSt) (s : State) : (enter st s).chAcc = s.chAcc := rfl
@[simp] theorem enter_chPolls (st : ChSt) (s : State) : (enter st s).chPolls = 0 := rfl
@[simp] theorem enter_seqSt (st : ChSt) (s : State) : (enter st s).seqSt = s.seqSt := rfl
@[simp] theorem enter_seqCmd (st : ChSt) (s : State) : (enter st s).seqCmd = s.seqCmd := rfl
@[simp] theorem enter_seqT0 (st : ChSt) (s : State) : (enter st s).seqT0 = s.seqT0 := rfl
@[simp] theorem enter_cfgOk (st : ChSt) (s : State) : (enter st s).cfgOk = s.cfgOk := rfl
@[simp] theorem enter_cmdcnt (st : ChSt) (s : State) : (enter st s).cmdcnt = s.cmdcnt := rfl
@[simp] theorem enter_trace (st : ChSt) (s : State) : (enter st s).trace = s.trace := rfl

@[simp] theorem startRead_par (addr : Byte) (n : BitVec 5) (s : State) : (startRead addr n s).par = s.par := rfl
@[simp] theorem startRead_env (addr : Byte) (n : BitVec 5) (s : State) : (startRead addr n s).env = s.env := rfl
@[simp] theorem startRead_rdata (addr : Byte) (n : BitVec 5) (s : State) : (startRead addr n s).rdata = s.rdata := rfl
@[simp] theorem startRead_rval (addr : Byte) (n : BitVec 5) (s : State) : (startRead addr n s).rval = s.rval := rfl
@[simp] theorem startRead_rstat (addr : Byte) (n : BitVec 5) (s : State) : (startRead addr n s).rstat = s.rstat := rfl
@[simp] theorem startRead_flog (addr : Byte) (n : BitVec 5) (s : State) : (startRead addr n s).flog = s.flog := rfl
@[simp] theorem startRead_finfo (addr : Byte) (n : BitVec 5) (s : State) : (startRead addr n s).finfo = s.finfo := rfl
@[simp] theorem startRead_snapV (addr : Byte) (n : BitVec 5) (s : State) : (startRead addr n s).snapV = s.snapV := rfl
@[simp] theorem startRead_snapR (addr : Byte) (n : BitVec 5) (s : State) : (startRead addr n s).snapR = s.snapR := rfl
@[simp] theorem startRead_snapD (addr : Byte) (n : BitVec 5) (s : State) : (startRead addr n s).snapD = s.snapD := rfl
@[simp] theorem startRead_chSt (addr : Byte) (n : BitVec 5) (s : State) : (startRead addr n s).chSt = .rPoll1 := rfl
@[simp] theorem startRead_chAddr (addr : Byte) (n : BitVec 5) (s : State) : (startRead addr n s).chAddr = .val addr := rfl
@[simp] theorem startRead_chN (addr : Byte) (n : BitVec 5) (s : State) : (startRead addr n s).chN = .val n := rfl
@[simp] theorem startRead_chI (addr : Byte) (n : BitVec 5) (s : State) : (startRead addr n s).chI = .val 0 := rfl
@[simp] theorem startRead_chOut (addr : Byte) (n : BitVec 5) (s : State) : (startRead addr n s).chOut = s.chOut := rfl
@[simp] theorem startRead_chAcc (addr : Byte) (n : BitVec 5) (s : State) : (startRead addr n s).chAcc = .val 0 := rfl
@[simp] theorem startRead_chPolls (addr : Byte) (n : BitVec 5) (s : State) : (startRead addr n s).chPolls = 0 := rfl
@[simp] theorem startRead_seqSt (addr : Byte) (n : BitVec 5) (s : State) : (startRead addr n s).seqSt = s.seqSt := rfl
@[simp] theorem startRead_seqCmd (addr : Byte) (n : BitVec 5) (s : State) : (startRead addr n s).seqCmd = s.seqCmd := rfl
@[simp] theorem startRead_seqT0 (addr : Byte) (n : BitVec 5) (s : State) : (startRead addr n s).seqT0 = s.seqT0 := rfl
@[simp] theorem startRead_cfgOk (addr : Byte) (n : BitVec 5) (s : State) : (startRead addr n s).cfgOk = s.cfgOk := rfl
@[simp] theorem startRead_cmdcnt (addr : Byte) (n : BitVec 5) (s : State) : (startRead addr n s).cmdcnt = s.cmdcnt := rfl
@[simp] theorem startRead_trace (addr : Byte) (n : BitVec 5) (s : State) : (startRead addr n s).trace = s.trace := rfl

@[simp] theorem startWrite_par (addr : Byte) (n : BitVec 5) (v : Nat) (s : State) : (startWrite addr n v s).par = s.par := rfl
@[simp] theorem startWrite_env (addr : Byte) (n : BitVec 5) (v : Nat) (s : State) : (startWrite addr n v s).env = s.env := rfl
@[simp] theorem startWrite_rdata (addr : Byte) (n : BitVec 5) (v : Nat) (s : State) : (startWrite addr n v s).rdata = s.rdata := rfl
@[simp] theorem startWrite_rval (addr : Byte) (n : BitVec 5) (v : Nat) (s : State) : (startWrite addr n v s).rval = s.rval := rfl
@[simp] theorem startWrite_rstat (addr : Byte) (n : BitVec 5) (v : Nat) (s : State) : (startWrite addr n v s).rstat = s.rstat := rfl
@[simp] theorem startWrite_flog (addr : Byte) (n : BitVec 5) (v : Nat) (s : State) : (startWrite addr n v s).flog = s.flog := rfl
@[simp] theorem startWrite_finfo (addr : Byte) (n : BitVec 5) (v : Nat) (s : State) : (startWrite addr n v s).finfo = s.finfo := rfl
@[simp] theorem startWrite_snapV (addr : Byte) (n : BitVec 5) (v : Nat) (s : State) : (startWrite addr n v s).snapV = s.snapV := rfl
@[simp] theorem startWrite_snapR (addr : Byte) (n : BitVec 5) (v : Nat) (s : State) : (startWrite addr n v s).snapR = s.snapR := rfl
@[simp] theorem startWrite_snapD (addr : Byte) (n : BitVec 5) (v : Nat) (s : State) : (startWrite addr n v s).snapD = s.snapD := rfl
@[simp] theorem startWrite_chSt (addr : Byte) (n : BitVec 5) (v : Nat) (s : State) : (startWrite addr n v s).chSt = .wPoll1 := rfl
@[simp] theorem startWrite_chAddr (addr : Byte) (n : BitVec 5) (v : Nat) (s : State) : (startWrite addr n v s).chAddr = .val addr := rfl
@[simp] theorem startWrite_chN (addr : Byte) (n : BitVec 5) (v : Nat) (s : State) : (startWrite addr n v s).chN = .val n := rfl
@[simp] theorem startWrite_chI (addr : Byte) (n : BitVec 5) (v : Nat) (s : State) : (startWrite addr n v s).chI = .val 0 := rfl
@[simp] theorem startWrite_chOut (addr : Byte) (n : BitVec 5) (v : Nat) (s : State) : (startWrite addr n v s).chOut = .val (zext192 (v % 2 ^ (8 * n.toNat))) := rfl
@[simp] theorem startWrite_chAcc (addr : Byte) (n : BitVec 5) (v : Nat) (s : State) : (startWrite addr n v s).chAcc = s.chAcc := rfl
@[simp] theorem startWrite_chPolls (addr : Byte) (n : BitVec 5) (v : Nat) (s : State) : (startWrite addr n v s).chPolls = 0 := rfl
@[simp] theorem startWrite_seqSt (addr : Byte) (n : BitVec 5) (v : Nat) (s : State) : (startWrite addr n v s).seqSt = s.seqSt := rfl
@[simp] theorem startWrite_seqCmd (addr : Byte) (n : BitVec 5) (v : Nat) (s : State) : (startWrite addr n v s).seqCmd = s.seqCmd := rfl
@[simp] theorem startWrite_seqT0 (addr : Byte) (n : BitVec 5) (v : Nat) (s : State) : (startWrite addr n v s).seqT0 = s.seqT0 := rfl
@[simp] theorem startWrite_cfgOk (addr : Byte) (n : BitVec 5) (v : Nat) (s : State) : (startWrite addr n v s).cfgOk = s.cfgOk := rfl
@[simp] theorem startWrite_cmdcnt (addr : Byte) (n : BitVec 5) (v : Nat) (s : State) : (startWrite addr n v s).cmdcnt = s.cmdcnt := rfl
@[simp] theorem startWrite_trace (addr : Byte) (n : BitVec 5) (v : Nat) (s : State) : (startWrite addr n v s).trace = s.trace := rfl

@[simp] theorem takeSnapshot_par (reg : BitVec 3) (v : Raw) (s : State) : (takeSnapshot reg v s).par = s.par := rfl
@[simp] theorem takeSnapshot_env (reg : BitVec 3) (v : Raw) (s : State) : (takeSnapshot reg v s).env = s.env := rfl
@[simp] theorem takeSnapshot_rdata (reg : BitVec 3) (v : Raw) (s : State) : (takeSnapshot reg v s).rdata = s.rdata := rfl
@[simp] theorem takeSnapshot_rval (reg : BitVec 3) (v : Raw) (s : State) : (takeSnapshot reg v s).rval = s.rval := rfl
@[simp] theorem takeSnapshot_rstat (reg : BitVec 3) (v : Raw) (s : State) : (takeSnapshot reg v s).rstat = s.rstat := rfl
@[simp] theorem takeSnapshot_flog (reg : BitVec 3) (v : Raw) (s : State) : (takeSnapshot reg v s).flog = s.flog := rfl
@[simp] theorem takeSnapshot_finfo (reg : BitVec 3) (v : Raw) (s : State) : (takeSnapshot reg v s).finfo = s.finfo := rfl
@[simp] theorem takeSnapshot_snapV (reg : BitVec 3) (v : Raw) (s : State) : (takeSnapshot reg v s).snapV = true := rfl
@[simp] theorem takeSnapshot_snapR (reg : BitVec 3) (v : Raw) (s : State) : (takeSnapshot reg v s).snapR = .val reg := rfl
@[simp] theorem takeSnapshot_snapD (reg : BitVec 3) (v : Raw) (s : State) : (takeSnapshot reg v s).snapD = .val v := rfl
@[simp] theorem takeSnapshot_chSt (reg : BitVec 3) (v : Raw) (s : State) : (takeSnapshot reg v s).chSt = s.chSt := rfl
@[simp] theorem takeSnapshot_chAddr (reg : BitVec 3) (v : Raw) (s : State) : (takeSnapshot reg v s).chAddr = s.chAddr := rfl
@[simp] theorem takeSnapshot_chN (reg : BitVec 3) (v : Raw) (s : State) : (takeSnapshot reg v s).chN = s.chN := rfl
@[simp] theorem takeSnapshot_chI (reg : BitVec 3) (v : Raw) (s : State) : (takeSnapshot reg v s).chI = s.chI := rfl
@[simp] theorem takeSnapshot_chOut (reg : BitVec 3) (v : Raw) (s : State) : (takeSnapshot reg v s).chOut = s.chOut := rfl
@[simp] theorem takeSnapshot_chAcc (reg : BitVec 3) (v : Raw) (s : State) : (takeSnapshot reg v s).chAcc = s.chAcc := rfl
@[simp] theorem takeSnapshot_chPolls (reg : BitVec 3) (v : Raw) (s : State) : (takeSnapshot reg v s).chPolls = s.chPolls := rfl
@[simp] theorem takeSnapshot_seqSt (reg : BitVec 3) (v : Raw) (s : State) : (takeSnapshot reg v s).seqSt = s.seqSt := rfl
@[simp] theorem takeSnapshot_seqCmd (reg : BitVec 3) (v : Raw) (s : State) : (takeSnapshot reg v s).seqCmd = s.seqCmd := rfl
@[simp] theorem takeSnapshot_seqT0 (reg : BitVec 3) (v : Raw) (s : State) : (takeSnapshot reg v s).seqT0 = s.seqT0 := rfl
@[simp] theorem takeSnapshot_cfgOk (reg : BitVec 3) (v : Raw) (s : State) : (takeSnapshot reg v s).cfgOk = s.cfgOk := rfl
@[simp] theorem takeSnapshot_cmdcnt (reg : BitVec 3) (v : Raw) (s : State) : (takeSnapshot reg v s).cmdcnt = s.cmdcnt := rfl
@[simp] theorem takeSnapshot_trace (reg : BitVec 3) (v : Raw) (s : State) : (takeSnapshot reg v s).trace = s.trace := rfl

@[simp] theorem startWaitPoll_par (s : State) : (startWaitPoll s).par = s.par := rfl
@[simp] theorem startWaitPoll_env (s : State) : (startWaitPoll s).env = s.env := rfl
@[simp] theorem startWaitPoll_rdata (s : State) : (startWaitPoll s).rdata = s.rdata := rfl
@[simp] theorem startWaitPoll_rval (s : State) : (startWaitPoll s).rval = s.rval := rfl
@[simp] theorem startWaitPoll_rstat (s : State) : (startWaitPoll s).rstat = s.rstat := rfl
@[simp] theorem startWaitPoll_flog (s : State) : (startWaitPoll s).flog = s.flog := rfl
@[simp] theorem startWaitPoll_finfo (s : State) : (startWaitPoll s).finfo = s.finfo := rfl
@[simp] theorem startWaitPoll_snapV (s : State) : (startWaitPoll s).snapV = s.snapV := rfl
@[simp] theorem startWaitPoll_snapR (s : State) : (startWaitPoll s).snapR = s.snapR := rfl
@[simp] theorem startWaitPoll_snapD (s : State) : (startWaitPoll s).snapD = s.snapD := rfl
@[simp] theorem startWaitPoll_chSt (s : State) : (startWaitPoll s).chSt = .rPoll1 := rfl
@[simp] theorem startWaitPoll_chAddr (s : State) : (startWaitPoll s).chAddr = .val controlAddr := rfl
@[simp] theorem startWaitPoll_chN (s : State) : (startWaitPoll s).chN = .val 1 := rfl
@[simp] theorem startWaitPoll_chI (s : State) : (startWaitPoll s).chI = .val 0 := rfl
@[simp] theorem startWaitPoll_chOut (s : State) : (startWaitPoll s).chOut = s.chOut := rfl
@[simp] theorem startWaitPoll_chAcc (s : State) : (startWaitPoll s).chAcc = .val 0 := rfl
@[simp] theorem startWaitPoll_chPolls (s : State) : (startWaitPoll s).chPolls = 0 := rfl
@[simp] theorem startWaitPoll_seqSt (s : State) : (startWaitPoll s).seqSt = .run := rfl
@[simp] theorem startWaitPoll_seqCmd (s : State) : (startWaitPoll s).seqCmd = s.seqCmd := rfl
@[simp] theorem startWaitPoll_seqT0 (s : State) : (startWaitPoll s).seqT0 = s.seqT0 := rfl
@[simp] theorem startWaitPoll_cfgOk (s : State) : (startWaitPoll s).cfgOk = s.cfgOk := rfl
@[simp] theorem startWaitPoll_cmdcnt (s : State) : (startWaitPoll s).cmdcnt = s.cmdcnt := rfl
@[simp] theorem startWaitPoll_trace (s : State) : (startWaitPoll s).trace = s.trace := rfl

@[simp] theorem acceptCommand_par (c : Command) (rest : List Command) (s : State) : (acceptCommand c rest s).par = s.par := rfl
@[simp] theorem acceptCommand_env (c : Command) (rest : List Command) (s : State) : (acceptCommand c rest s).env = { s.env with port := rest } := rfl
@[simp] theorem acceptCommand_rdata (c : Command) (rest : List Command) (s : State) : (acceptCommand c rest s).rdata = s.rdata := rfl
@[simp] theorem acceptCommand_rval (c : Command) (rest : List Command) (s : State) : (acceptCommand c rest s).rval = s.rval := rfl
@[simp] theorem acceptCommand_rstat (c : Command) (rest : List Command) (s : State) : (acceptCommand c rest s).rstat = s.rstat := rfl
@[simp] theorem acceptCommand_flog (c : Command) (rest : List Command) (s : State) : (acceptCommand c rest s).flog = s.flog := rfl
@[simp] theorem acceptCommand_finfo (c : Command) (rest : List Command) (s : State) : (acceptCommand c rest s).finfo = s.finfo := rfl
@[simp] theorem acceptCommand_snapV (c : Command) (rest : List Command) (s : State) : (acceptCommand c rest s).snapV = s.snapV := rfl
@[simp] theorem acceptCommand_snapR (c : Command) (rest : List Command) (s : State) : (acceptCommand c rest s).snapR = s.snapR := rfl
@[simp] theorem acceptCommand_snapD (c : Command) (rest : List Command) (s : State) : (acceptCommand c rest s).snapD = s.snapD := rfl
@[simp] theorem acceptCommand_chSt (c : Command) (rest : List Command) (s : State) : (acceptCommand c rest s).chSt = s.chSt := rfl
@[simp] theorem acceptCommand_chAddr (c : Command) (rest : List Command) (s : State) : (acceptCommand c rest s).chAddr = s.chAddr := rfl
@[simp] theorem acceptCommand_chN (c : Command) (rest : List Command) (s : State) : (acceptCommand c rest s).chN = s.chN := rfl
@[simp] theorem acceptCommand_chI (c : Command) (rest : List Command) (s : State) : (acceptCommand c rest s).chI = s.chI := rfl
@[simp] theorem acceptCommand_chOut (c : Command) (rest : List Command) (s : State) : (acceptCommand c rest s).chOut = s.chOut := rfl
@[simp] theorem acceptCommand_chAcc (c : Command) (rest : List Command) (s : State) : (acceptCommand c rest s).chAcc = s.chAcc := rfl
@[simp] theorem acceptCommand_chPolls (c : Command) (rest : List Command) (s : State) : (acceptCommand c rest s).chPolls = s.chPolls := rfl
@[simp] theorem acceptCommand_seqSt (c : Command) (rest : List Command) (s : State) : (acceptCommand c rest s).seqSt = .run := rfl
@[simp] theorem acceptCommand_seqCmd (c : Command) (rest : List Command) (s : State) : (acceptCommand c rest s).seqCmd = .val c := rfl
@[simp] theorem acceptCommand_seqT0 (c : Command) (rest : List Command) (s : State) : (acceptCommand c rest s).seqT0 = s.seqT0 := rfl
@[simp] theorem acceptCommand_cfgOk (c : Command) (rest : List Command) (s : State) : (acceptCommand c rest s).cfgOk = s.cfgOk := rfl
@[simp] theorem acceptCommand_cmdcnt (c : Command) (rest : List Command) (s : State) : (acceptCommand c rest s).cmdcnt = s.cmdcnt := rfl
@[simp] theorem acceptCommand_trace (c : Command) (rest : List Command) (s : State) : (acceptCommand c rest s).trace = s.trace := rfl

@[simp] theorem sampleReset_par (s : State) : (sampleReset s).par = s.par := rfl
@[simp] theorem sampleReset_env (s : State) : (sampleReset s).env = { s.env with resetPin := s.env.resetPin.tail } := rfl
@[simp] theorem sampleReset_rdata (s : State) : (sampleReset s).rdata = s.rdata := rfl
@[simp] theorem sampleReset_rval (s : State) : (sampleReset s).rval = s.rval := rfl
@[simp] theorem sampleReset_rstat (s : State) : (sampleReset s).rstat = s.rstat := rfl
@[simp] theorem sampleReset_flog (s : State) : (sampleReset s).flog = s.flog := rfl
@[simp] theorem sampleReset_finfo (s : State) : (sampleReset s).finfo = s.finfo := rfl
@[simp] theorem sampleReset_snapV (s : State) : (sampleReset s).snapV = s.snapV := rfl
@[simp] theorem sampleReset_snapR (s : State) : (sampleReset s).snapR = s.snapR := rfl
@[simp] theorem sampleReset_snapD (s : State) : (sampleReset s).snapD = s.snapD := rfl
@[simp] theorem sampleReset_chSt (s : State) : (sampleReset s).chSt = s.chSt := rfl
@[simp] theorem sampleReset_chAddr (s : State) : (sampleReset s).chAddr = s.chAddr := rfl
@[simp] theorem sampleReset_chN (s : State) : (sampleReset s).chN = s.chN := rfl
@[simp] theorem sampleReset_chI (s : State) : (sampleReset s).chI = s.chI := rfl
@[simp] theorem sampleReset_chOut (s : State) : (sampleReset s).chOut = s.chOut := rfl
@[simp] theorem sampleReset_chAcc (s : State) : (sampleReset s).chAcc = s.chAcc := rfl
@[simp] theorem sampleReset_chPolls (s : State) : (sampleReset s).chPolls = s.chPolls := rfl
@[simp] theorem sampleReset_seqSt (s : State) : (sampleReset s).seqSt = s.seqSt := rfl
@[simp] theorem sampleReset_seqCmd (s : State) : (sampleReset s).seqCmd = s.seqCmd := rfl
@[simp] theorem sampleReset_seqT0 (s : State) : (sampleReset s).seqT0 = s.seqT0 := rfl
@[simp] theorem sampleReset_cfgOk (s : State) : (sampleReset s).cfgOk = s.cfgOk := rfl
@[simp] theorem sampleReset_cmdcnt (s : State) : (sampleReset s).cmdcnt = s.cmdcnt := rfl
@[simp] theorem sampleReset_trace (s : State) : (sampleReset s).trace = s.trace := rfl

@[simp] theorem offerCommand_par (c : Command) (s : State) : (offerCommand c s).par = s.par := rfl
@[simp] theorem offerCommand_env (c : Command) (s : State) : (offerCommand c s).env = { s.env with port := c :: s.env.port, resetPin := [] } := rfl
@[simp] theorem offerCommand_rdata (c : Command) (s : State) : (offerCommand c s).rdata = s.rdata := rfl
@[simp] theorem offerCommand_rval (c : Command) (s : State) : (offerCommand c s).rval = s.rval := rfl
@[simp] theorem offerCommand_rstat (c : Command) (s : State) : (offerCommand c s).rstat = s.rstat := rfl
@[simp] theorem offerCommand_flog (c : Command) (s : State) : (offerCommand c s).flog = s.flog := rfl
@[simp] theorem offerCommand_finfo (c : Command) (s : State) : (offerCommand c s).finfo = s.finfo := rfl
@[simp] theorem offerCommand_snapV (c : Command) (s : State) : (offerCommand c s).snapV = s.snapV := rfl
@[simp] theorem offerCommand_snapR (c : Command) (s : State) : (offerCommand c s).snapR = s.snapR := rfl
@[simp] theorem offerCommand_snapD (c : Command) (s : State) : (offerCommand c s).snapD = s.snapD := rfl
@[simp] theorem offerCommand_chSt (c : Command) (s : State) : (offerCommand c s).chSt = .idle := rfl
@[simp] theorem offerCommand_chAddr (c : Command) (s : State) : (offerCommand c s).chAddr = s.chAddr := rfl
@[simp] theorem offerCommand_chN (c : Command) (s : State) : (offerCommand c s).chN = s.chN := rfl
@[simp] theorem offerCommand_chI (c : Command) (s : State) : (offerCommand c s).chI = s.chI := rfl
@[simp] theorem offerCommand_chOut (c : Command) (s : State) : (offerCommand c s).chOut = s.chOut := rfl
@[simp] theorem offerCommand_chAcc (c : Command) (s : State) : (offerCommand c s).chAcc = s.chAcc := rfl
@[simp] theorem offerCommand_chPolls (c : Command) (s : State) : (offerCommand c s).chPolls = s.chPolls := rfl
@[simp] theorem offerCommand_seqSt (c : Command) (s : State) : (offerCommand c s).seqSt = .idle := rfl
@[simp] theorem offerCommand_seqCmd (c : Command) (s : State) : (offerCommand c s).seqCmd = s.seqCmd := rfl
@[simp] theorem offerCommand_seqT0 (c : Command) (s : State) : (offerCommand c s).seqT0 = s.seqT0 := rfl
@[simp] theorem offerCommand_cfgOk (c : Command) (s : State) : (offerCommand c s).cfgOk = s.cfgOk := rfl
@[simp] theorem offerCommand_cmdcnt (c : Command) (s : State) : (offerCommand c s).cmdcnt = s.cmdcnt := rfl
@[simp] theorem offerCommand_trace (c : Command) (s : State) : (offerCommand c s).trace = s.trace := rfl

@[simp] theorem dropSnapshotOf_par (reg : BitVec 3) (s : State) : (dropSnapshotOf reg s).par = s.par := by
  unfold dropSnapshotOf; split <;> rfl
@[simp] theorem dropSnapshotOf_env (reg : BitVec 3) (s : State) : (dropSnapshotOf reg s).env = s.env := by
  unfold dropSnapshotOf; split <;> rfl
@[simp] theorem dropSnapshotOf_rdata (reg : BitVec 3) (s : State) : (dropSnapshotOf reg s).rdata = s.rdata := by
  unfold dropSnapshotOf; split <;> rfl
@[simp] theorem dropSnapshotOf_rval (reg : BitVec 3) (s : State) : (dropSnapshotOf reg s).rval = s.rval := by
  unfold dropSnapshotOf; split <;> rfl
@[simp] theorem dropSnapshotOf_rstat (reg : BitVec 3) (s : State) : (dropSnapshotOf reg s).rstat = s.rstat := by
  unfold dropSnapshotOf; split <;> rfl
@[simp] theorem dropSnapshotOf_flog (reg : BitVec 3) (s : State) : (dropSnapshotOf reg s).flog = s.flog := by
  unfold dropSnapshotOf; split <;> rfl
@[simp] theorem dropSnapshotOf_finfo (reg : BitVec 3) (s : State) : (dropSnapshotOf reg s).finfo = s.finfo := by
  unfold dropSnapshotOf; split <;> rfl
@[simp] theorem dropSnapshotOf_snapR (reg : BitVec 3) (s : State) : (dropSnapshotOf reg s).snapR = s.snapR := by
  unfold dropSnapshotOf; split <;> rfl
@[simp] theorem dropSnapshotOf_snapD (reg : BitVec 3) (s : State) : (dropSnapshotOf reg s).snapD = s.snapD := by
  unfold dropSnapshotOf; split <;> rfl
@[simp] theorem dropSnapshotOf_chSt (reg : BitVec 3) (s : State) : (dropSnapshotOf reg s).chSt = s.chSt := by
  unfold dropSnapshotOf; split <;> rfl
@[simp] theorem dropSnapshotOf_chAddr (reg : BitVec 3) (s : State) : (dropSnapshotOf reg s).chAddr = s.chAddr := by
  unfold dropSnapshotOf; split <;> rfl
@[simp] theorem dropSnapshotOf_chN (reg : BitVec 3) (s : State) : (dropSnapshotOf reg s).chN = s.chN := by
  unfold dropSnapshotOf; split <;> rfl
@[simp] theorem dropSnapshotOf_chI (reg : BitVec 3) (s : State) : (dropSnapshotOf reg s).chI = s.chI := by
  unfold dropSnapshotOf; split <;> rfl
@[simp] theorem dropSnapshotOf_chOut (reg : BitVec 3) (s : State) : (dropSnapshotOf reg s).chOut = s.chOut := by
  unfold dropSnapshotOf; split <;> rfl
@[simp] theorem dropSnapshotOf_chAcc (reg : BitVec 3) (s : State) : (dropSnapshotOf reg s).chAcc = s.chAcc := by
  unfold dropSnapshotOf; split <;> rfl
@[simp] theorem dropSnapshotOf_chPolls (reg : BitVec 3) (s : State) : (dropSnapshotOf reg s).chPolls = s.chPolls := by
  unfold dropSnapshotOf; split <;> rfl
@[simp] theorem dropSnapshotOf_seqSt (reg : BitVec 3) (s : State) : (dropSnapshotOf reg s).seqSt = s.seqSt := by
  unfold dropSnapshotOf; split <;> rfl
@[simp] theorem dropSnapshotOf_seqCmd (reg : BitVec 3) (s : State) : (dropSnapshotOf reg s).seqCmd = s.seqCmd := by
  unfold dropSnapshotOf; split <;> rfl
@[simp] theorem dropSnapshotOf_seqT0 (reg : BitVec 3) (s : State) : (dropSnapshotOf reg s).seqT0 = s.seqT0 := by
  unfold dropSnapshotOf; split <;> rfl
@[simp] theorem dropSnapshotOf_cfgOk (reg : BitVec 3) (s : State) : (dropSnapshotOf reg s).cfgOk = s.cfgOk := by
  unfold dropSnapshotOf; split <;> rfl
@[simp] theorem dropSnapshotOf_cmdcnt (reg : BitVec 3) (s : State) : (dropSnapshotOf reg s).cmdcnt = s.cmdcnt := by
  unfold dropSnapshotOf; split <;> rfl
@[simp] theorem dropSnapshotOf_trace (reg : BitVec 3) (s : State) : (dropSnapshotOf reg s).trace = s.trace := by
  unfold dropSnapshotOf; split <;> rfl

@[simp] theorem sensorAnswer_par (p : Config.Preg) (s : State) : (sensorAnswer p s).2.par = s.par := by
  unfold sensorAnswer; split <;> rfl
@[simp] theorem sensorAnswer_rdata (p : Config.Preg) (s : State) : (sensorAnswer p s).2.rdata = s.rdata := by
  unfold sensorAnswer; split <;> rfl
@[simp] theorem sensorAnswer_rval (p : Config.Preg) (s : State) : (sensorAnswer p s).2.rval = s.rval := by
  unfold sensorAnswer; split <;> rfl
@[simp] theorem sensorAnswer_rstat (p : Config.Preg) (s : State) : (sensorAnswer p s).2.rstat = s.rstat := by
  unfold sensorAnswer; split <;> rfl
@[simp] theorem sensorAnswer_flog (p : Config.Preg) (s : State) : (sensorAnswer p s).2.flog = s.flog := by
  unfold sensorAnswer; split <;> rfl
@[simp] theorem sensorAnswer_finfo (p : Config.Preg) (s : State) : (sensorAnswer p s).2.finfo = s.finfo := by
  unfold sensorAnswer; split <;> rfl
@[simp] theorem sensorAnswer_snapV (p : Config.Preg) (s : State) : (sensorAnswer p s).2.snapV = s.snapV := by
  unfold sensorAnswer; split <;> rfl
@[simp] theorem sensorAnswer_snapR (p : Config.Preg) (s : State) : (sensorAnswer p s).2.snapR = s.snapR := by
  unfold sensorAnswer; split <;> rfl
@[simp] theorem sensorAnswer_snapD (p : Config.Preg) (s : State) : (sensorAnswer p s).2.snapD = s.snapD := by
  unfold sensorAnswer; split <;> rfl
@[simp] theorem sensorAnswer_chSt (p : Config.Preg) (s : State) : (sensorAnswer p s).2.chSt = s.chSt := by
  unfold sensorAnswer; split <;> rfl
@[simp] theorem sensorAnswer_chAddr (p : Config.Preg) (s : State) : (sensorAnswer p s).2.chAddr = s.chAddr := by
  unfold sensorAnswer; split <;> rfl
@[simp] theorem sensorAnswer_chN (p : Config.Preg) (s : State) : (sensorAnswer p s).2.chN = s.chN := by
  unfold sensorAnswer; split <;> rfl
@[simp] theorem sensorAnswer_chI (p : Config.Preg) (s : State) : (sensorAnswer p s).2.chI = s.chI := by
  unfold sensorAnswer; split <;> rfl
@[simp] theorem sensorAnswer_chOut (p : Config.Preg) (s : State) : (sensorAnswer p s).2.chOut = s.chOut := by
  unfold sensorAnswer; split <;> rfl
@[simp] theorem sensorAnswer_chAcc (p : Config.Preg) (s : State) : (sensorAnswer p s).2.chAcc = s.chAcc := by
  unfold sensorAnswer; split <;> rfl
@[simp] theorem sensorAnswer_chPolls (p : Config.Preg) (s : State) : (sensorAnswer p s).2.chPolls = s.chPolls := by
  unfold sensorAnswer; split <;> rfl
@[simp] theorem sensorAnswer_seqSt (p : Config.Preg) (s : State) : (sensorAnswer p s).2.seqSt = s.seqSt := by
  unfold sensorAnswer; split <;> rfl
@[simp] theorem sensorAnswer_seqCmd (p : Config.Preg) (s : State) : (sensorAnswer p s).2.seqCmd = s.seqCmd := by
  unfold sensorAnswer; split <;> rfl
@[simp] theorem sensorAnswer_seqT0 (p : Config.Preg) (s : State) : (sensorAnswer p s).2.seqT0 = s.seqT0 := by
  unfold sensorAnswer; split <;> rfl
@[simp] theorem sensorAnswer_cfgOk (p : Config.Preg) (s : State) : (sensorAnswer p s).2.cfgOk = s.cfgOk := by
  unfold sensorAnswer; split <;> rfl
@[simp] theorem sensorAnswer_cmdcnt (p : Config.Preg) (s : State) : (sensorAnswer p s).2.cmdcnt = s.cmdcnt := by
  unfold sensorAnswer; split <;> rfl
@[simp] theorem sensorAnswer_trace (p : Config.Preg) (s : State) : (sensorAnswer p s).2.trace = s.trace := by
  unfold sensorAnswer; split <;> rfl

@[simp] theorem now_par (s : State) : (now s).2.par = s.par := by
  unfold now; split <;> rfl
@[simp] theorem now_rdata (s : State) : (now s).2.rdata = s.rdata := by
  unfold now; split <;> rfl
@[simp] theorem now_rval (s : State) : (now s).2.rval = s.rval := by
  unfold now; split <;> rfl
@[simp] theorem now_rstat (s : State) : (now s).2.rstat = s.rstat := by
  unfold now; split <;> rfl
@[simp] theorem now_flog (s : State) : (now s).2.flog = s.flog := by
  unfold now; split <;> rfl
@[simp] theorem now_finfo (s : State) : (now s).2.finfo = s.finfo := by
  unfold now; split <;> rfl
@[simp] theorem now_snapV (s : State) : (now s).2.snapV = s.snapV := by
  unfold now; split <;> rfl
@[simp] theorem now_snapR (s : State) : (now s).2.snapR = s.snapR := by
  unfold now; split <;> rfl
@[simp] theorem now_snapD (s : State) : (now s).2.snapD = s.snapD := by
  unfold now; split <;> rfl
@[simp] theorem now_chSt (s : State) : (now s).2.chSt = s.chSt := by
  unfold now; split <;> rfl
@[simp] theorem now_chAddr (s : State) : (now s).2.chAddr = s.chAddr := by
  unfold now; split <;> rfl
@[simp] theorem now_chN (s : State) : (now s).2.chN = s.chN := by
  unfold now; split <;> rfl
@[simp] theorem now_chI (s : State) : (now s).2.chI = s.chI := by
  unfold now; split <;> rfl
@[simp] theorem now_chOut (s : State) : (now s).2.chOut = s.chOut := by
  unfold now; split <;> rfl
@[simp] theorem now_chAcc (s : State) : (now s).2.chAcc = s.chAcc := by
  unfold now; split <;> rfl
@[simp] theorem now_chPolls (s : State) : (now s).2.chPolls = s.chPolls := by
  unfold now; split <;> rfl
@[simp] theorem now_seqSt (s : State) : (now s).2.seqSt = s.seqSt := by
  unfold now; split <;> rfl
@[simp] theorem now_seqCmd (s : State) : (now s).2.seqCmd = s.seqCmd := by
  unfold now; split <;> rfl
@[simp] theorem now_seqT0 (s : State) : (now s).2.seqT0 = s.seqT0 := by
  unfold now; split <;> rfl
@[simp] theorem now_cfgOk (s : State) : (now s).2.cfgOk = s.cfgOk := by
  unfold now; split <;> rfl
@[simp] theorem now_cmdcnt (s : State) : (now s).2.cmdcnt = s.cmdcnt := by
  unfold now; split <;> rfl
@[simp] theorem now_trace (s : State) : (now s).2.trace = s.trace := by
  unfold now; split <;> rfl

@[simp] theorem vrmReset_rdata (s : State) : (vrmReset s).rdata = .undef := rfl
@[simp] theorem vrmReset_rval (s : State) : (vrmReset s).rval = .undef := rfl
@[simp] theorem vrmReset_rstat (s : State) : (vrmReset s).rstat = 0x00 := rfl
@[simp] theorem vrmReset_flog (s : State) : (vrmReset s).flog = 0x0000 := rfl
@[simp] theorem vrmReset_finfo (s : State) : (vrmReset s).finfo = .undef := rfl
@[simp] theorem vrmReset_snapV (s : State) : (vrmReset s).snapV = false := rfl
@[simp] theorem vrmReset_snapR (s : State) : (vrmReset s).snapR = .undef := rfl
@[simp] theorem vrmReset_snapD (s : State) : (vrmReset s).snapD = .undef := rfl
@[simp] theorem vrmReset_chSt (s : State) : (vrmReset s).chSt = .idle := rfl
@[simp] theorem vrmReset_chAddr (s : State) : (vrmReset s).chAddr = .undef := rfl
@[simp] theorem vrmReset_chN (s : State) : (vrmReset s).chN = .undef := rfl
@[simp] theorem vrmReset_chI (s : State) : (vrmReset s).chI = .undef := rfl
@[simp] theorem vrmReset_chOut (s : State) : (vrmReset s).chOut = .undef := rfl
@[simp] theorem vrmReset_chAcc (s : State) : (vrmReset s).chAcc = .undef := rfl
@[simp] theorem vrmReset_chPolls (s : State) : (vrmReset s).chPolls = 0 := rfl
@[simp] theorem vrmReset_seqSt (s : State) : (vrmReset s).seqSt = .idle := rfl
@[simp] theorem vrmReset_seqCmd (s : State) : (vrmReset s).seqCmd = .undef := rfl
@[simp] theorem vrmReset_seqT0 (s : State) : (vrmReset s).seqT0 = .undef := rfl
@[simp] theorem vrmReset_cfgOk (s : State) : (vrmReset s).cfgOk = (configCheck s.par.masks).isNone := rfl
@[simp] theorem vrmReset_cmdcnt (s : State) : (vrmReset s).cmdcnt = 0 := rfl
@[simp] theorem vrmReset_trace (s : State) : (vrmReset s).trace = [] := rfl
@[simp] theorem vrmReset_par (s : State) : (vrmReset s).par = s.par := rfl
@[simp] theorem vrmReset_env (s : State) : (vrmReset s).env = s.env := rfl

end Sys2Proof.Machine
end

