-- ==== Sys2Proof/Laws/Ops.lean ====
section
/-! SUPPORT. What each shared operation can do: if it answers a next state, then one of these cases. -/

namespace Sys2Proof.Machine

open Sys2Proof.Config (Field Register FieldMasks Preg)

theorem next_inj {s t : State} (h : (Host.Outcome.next s : Result) = .next t) : s = t := by
  cases h; rfl

/-- Reading a latch goes on only with its value. -/
theorem withLatch_next {α : Type} {l : Latch α} {n : LatchName} {k : α → Result} {t : State}
    (h : withLatch l n k = .next t) : ∃ a, l = .val a ∧ k a = .next t := by
  cases l with
  | undef => simp [withLatch] at h
  | val a => exact ⟨a, rfl, h⟩

@[simp] theorem withLatch_val {α : Type} (a : α) (n : LatchName) (k : α → Result) :
    withLatch (.val a) n k = k a := rfl

@[simp] theorem withLatch_undef {α : Type} (n : LatchName) (k : α → Result) :
    withLatch (.undef : Latch α) n k = .fault (.undefRead n) := rfl

@[simp] theorem raised_eq (info : FaultInfo) (s : State) : raised info s = .next (raise info s) := rfl

/-- A command acts on the register it names, or raises NoSuchRegister. -/
theorem withRegister_next {reg : BitVec 3} {s t : State} {k : Register → Result}
    (h : withRegister reg s k = .next t) :
    (lookupRegister s.par.masks reg = .error (.noSuchRegister reg) ∧ t = raise (.noSuchRegister reg) s) ∨
      ∃ r, lookupRegister s.par.masks reg = .ok r ∧ k r = .next t := by
  unfold withRegister at h
  unfold lookupRegister at h ⊢
  cases hm : (Config.map s.par.masks)[reg.toNat]? with
  | none => rw [hm] at h; left; exact ⟨rfl, (next_inj h).symm⟩
  | some r => rw [hm] at h; right; exact ⟨r, rfl, h⟩

/-- A command acts on the field it names, or raises NoSuchRegister or NoSuchField. -/
theorem withField_next {reg fld : BitVec 3} {s t : State} {k : Register → Field → Result}
    (h : withField reg fld s k = .next t) :
    (∃ info, lookupField s.par.masks reg fld = .error info ∧ t = raise info s) ∨
      ∃ r f, lookupField s.par.masks reg fld = .ok (r, f) ∧ k r f = .next t := by
  unfold withField at h
  cases hl : lookupField s.par.masks reg fld with
  | error info => rw [hl] at h; left; exact ⟨info, rfl, (next_inj h).symm⟩
  | ok p => rw [hl] at h; right; exact ⟨p.1, p.2, rfl, h⟩

/-- A field that is found belongs to the register that is found. -/
theorem lookupField_register {m : FieldMasks} {reg fld : BitVec 3} {r : Register} {f : Field}
    (h : lookupField m reg fld = .ok (r, f)) : lookupRegister m reg = .ok r ∧ r.fields[fld.toNat]? = some f := by
  unfold lookupField at h
  unfold lookupRegister
  cases hm : (Config.map m)[reg.toNat]? with
  | none => rw [hm] at h; cases h
  | some r' =>
    rw [hm] at h
    cases hf : r'.fields[fld.toNat]? with
    | none => simp only [hf] at h; cases h
    | some f' => simp only [hf] at h; cases h; exact ⟨rfl, hf⟩

/-- The registers of MAP, whatever the masks: their address, length and width fit a channel access. -/
theorem map_registers {m : FieldMasks} {r : Register} (h : r ∈ Config.map m) :
    r.width = 8 * r.bytes ∧ 1 ≤ r.bytes ∧ r.bytes ≤ Config.maxLen ∧ r.addr.toNat + r.bytes ≤ Config.vaddrEnd ∧
      (registerLen r).toNat = r.bytes := by
  simp only [Config.map, List.mem_cons, List.not_mem_nil, or_false] at h
  rcases h with rfl | rfl | rfl | rfl | rfl | rfl | rfl <;>
    simp [Config.versionReg, Config.controlReg, Config.integrationTimeReg, Config.temperatureReg, Config.ledControlReg,
      Config.dataReg, Config.calibratedDataReg, Register.bytes, Config.maxLen, Config.vaddrEnd, registerLen]

theorem lookupRegister_mem {m : FieldMasks} {reg : BitVec 3} {r : Register} (h : lookupRegister m reg = .ok r) :
    r ∈ Config.map m := by
  unfold lookupRegister at h
  cases hm : (Config.map m)[reg.toNat]? with
  | none => rw [hm] at h; cases h
  | some r' => rw [hm] at h; cases h; exact List.mem_of_getElem? hm

/-- The range check of a channel access (41_channel.md R126). -/
theorem inRange_iff {len : BitVec 5} {addr : Byte} :
    inRange len addr = true ↔ 1 ≤ len.toNat ∧ len.toNat ≤ 24 ∧ addr.toNat + len.toNat ≤ 0x80 := by
  simp only [inRange, Bool.and_eq_true, decide_eq_true_eq, and_assoc]
  exact Iff.rfl

/-- A sensor answer changes only what the sensor has still to say. -/
theorem sensorAnswer_state (p : Preg) (s : State) :
    (sensorAnswer p s).2 = { s with env := (sensorAnswer p s).2.env } ∧
      (sensorAnswer p s).2.env.port = s.env.port ∧ (sensorAnswer p s).2.env.resetPin = s.env.resetPin ∧
      (sensorAnswer p s).2.env.lastNow = s.env.lastNow := by
  unfold sensorAnswer; split <;> exact ⟨rfl, rfl, rfl, rfl⟩

/-- A reading of the time input is the last one or a later one, or the last one again. -/
theorem timeReading_cases (last proposed : F64) :
    timeReading last proposed = last ∨
      (timeReading last proposed = proposed ∧ extLe (f64Ext last) (f64Ext proposed) = true) := by
  unfold timeReading
  split
  · rename_i h
    simp only [Bool.and_eq_true] at h
    exact .inr ⟨rfl, h.2⟩
  · exact .inl rfl

/-- `now()` changes only the time input's record, and answers a reading taken against the last one. -/
theorem now_state (s : State) :
    (now s).2 = { s with env := (now s).2.env } ∧ (now s).2.env.port = s.env.port ∧
      (now s).2.env.resetPin = s.env.resetPin ∧ (now s).2.env.sensorIn = s.env.sensorIn ∧
      (now s).2.env.lastNow = (now s).1 ∧ ∃ c, (now s).1 = timeReading s.env.lastNow c := by
  unfold now; split <;> exact ⟨rfl, rfl, rfl, rfl, rfl, _, rfl⟩

/-- A write command drops the snapshot or leaves it, and changes nothing else. -/
theorem dropSnapshotOf_cases (reg : BitVec 3) (s : State) :
    (s.snapV = true ∧ s.snapR = .val reg ∧ dropSnapshotOf reg s = { s with snapV := false }) ∨
      (¬(s.snapV = true ∧ s.snapR = .val reg) ∧ dropSnapshotOf reg s = s) := by
  unfold dropSnapshotOf
  split
  · rename_i h; exact .inl ⟨h.1, h.2, rfl⟩
  · rename_i h; exact .inr ⟨h, rfl⟩

/-- The encode of the two fields that WAITRDY and SRESET use by name never fails (43_adapters.md R170). -/
theorem resetField_encodes (m : FieldMasks) :
    fieldEncode (resetField m) controlWidth (.int 1) = some (placeBits (resetField m) controlWidth 1) := rfl

theorem dataReadyField_decodes (m : FieldMasks) (raw : Nat) :
    fieldDecode (dataReadyField m) raw = some (.int (extractField (dataReadyField m) raw)) := rfl

/-- MemRead returns to one of the six commands that make one. -/
theorem readReturn_next {v : Raw} {s t : State} (h : readReturn v s = .next t) :
    ∃ c, s.seqCmd = .val c ∧
      ((∃ len addr, decodeCommand c.cmd = .ok (.vread len addr) ∧ vreadReturn v s = .next t) ∨
        (∃ reg, decodeCommand c.cmd = .ok (.rdreg reg) ∧ rdregReturn reg v s = .next t) ∨
        (∃ reg fld, decodeCommand c.cmd = .ok (.rdfld reg fld) ∧ rdfldReturn reg fld v s = .next t) ∨
        (∃ reg fld, decodeCommand c.cmd = .ok (.wrfld reg fld) ∧ wrfldMerge reg fld c.opv v s = .next t) ∨
        (decodeCommand c.cmd = .ok .waitrdy ∧ waitrdyPolled v s = .next t) ∨
        (decodeCommand c.cmd = .ok .sreset ∧ sresetMerge v s = .next t)) := by
  obtain ⟨c, hc, h⟩ := withLatch_next h
  refine ⟨c, hc, ?_⟩
  cases hd : decodeCommand c.cmd with
  | error e => simp [hd] at h
  | ok i =>
    simp only [hd] at h
    cases i <;> first | (cases h; done) | simp_all

/-- MemWrite returns to one of the four commands that make one. -/
theorem writeReturn_next {v : Raw} {s t : State} (h : writeReturn v s = .next t) :
    ∃ c, s.seqCmd = .val c ∧
      ((∃ len addr, decodeCommand c.cmd = .ok (.vwrite len addr) ∧ vwriteReturn s = .next t) ∨
        (∃ reg, decodeCommand c.cmd = .ok (.wrreg reg) ∧ wrregReturn v s = .next t) ∨
        (∃ reg fld, decodeCommand c.cmd = .ok (.wrfld reg fld) ∧ wrfldReturn v s = .next t) ∨
        (decodeCommand c.cmd = .ok .sreset ∧ sresetWritten v s = .next t)) := by
  obtain ⟨c, hc, h⟩ := withLatch_next h
  refine ⟨c, hc, ?_⟩
  cases hd : decodeCommand c.cmd with
  | error e => simp [hd] at h
  | ok i =>
    simp only [hd] at h
    cases i <;> first | (cases h; done) | simp_all

/-- BUS_RD_STATUS: a poll is satisfied, goes on, or raises DeviceUnresponsive (41_channel.md R122, R125). -/
theorem execBusRdStatus_next {b : Byte} {s t : State} (h : execBusRdStatus b s = .next t) :
    (pollSatisfied s.chSt b = some true ∧ t = enter (afterPoll s.chSt) (emit ⟨.read, .status, b⟩ s)) ∨
      (pollSatisfied s.chSt b = some false ∧ pollBoundReached s.par.pollLimit (s.chPolls + 1) = false ∧
        t = { emit ⟨.read, .status, b⟩ s with chPolls := s.chPolls + 1 }) ∨
      (pollSatisfied s.chSt b = some false ∧ pollBoundReached s.par.pollLimit (s.chPolls + 1) = true ∧
        ∃ addr i, s.chAddr = .val addr ∧ s.chI = .val i ∧
          t = raise (.deviceUnresponsive s.chSt addr i b)
            { emit ⟨.read, .status, b⟩ s with chPolls := s.chPolls + 1 }) := by
  unfold execBusRdStatus at h
  cases hp : pollSatisfied s.chSt b with
  | none => simp [hp] at h
  | some ok =>
    cases ok with
    | true => simp only [hp] at h; exact .inl ⟨rfl, (next_inj h).symm⟩
    | false =>
      simp only [hp] at h
      split at h
      · rename_i hb
        obtain ⟨addr, ha, h⟩ := withLatch_next h
        obtain ⟨i, hi, h⟩ := withLatch_next h
        exact .inr (.inr ⟨rfl, hb, addr, i, ha, hi, (next_inj h).symm⟩)
      · rename_i hb
        exact .inr (.inl ⟨rfl, by simpa using hb, (next_inj h).symm⟩)

/-- BUS_SEL_W: the base address with the write flag, and on to the second poll (41_channel.md R128). -/
theorem execBusSelW_next {a : BitVec 7} {s t : State} (h : execBusSelW a s = .next t) :
    s.chSt = .wSel ∧ ∃ addr, s.chAddr = .val addr ∧ writeSelection addr = 1#1 ++ a ∧
      t = enter .wPoll2 (emit ⟨.write, .writePtr, 1#1 ++ a⟩ s) := by
  unfold execBusSelW at h
  split at h
  · rename_i hs
    obtain ⟨addr, ha, h⟩ := withLatch_next h
    split at h
    · rename_i he; exact ⟨hs, addr, ha, he, (next_inj h).symm⟩
    · cases h
  · cases h

/-- BUS_SEL_R: the address with the offset added, and on to the second poll (41_channel.md R130). -/
theorem execBusSelR_next {a : BitVec 7} {s t : State} (h : execBusSelR a s = .next t) :
    s.chSt = .rSel ∧ ∃ addr i, s.chAddr = .val addr ∧ s.chI = .val i ∧ readSelection addr i = 0#1 ++ a ∧
      t = enter .rPoll2 (emit ⟨.write, .writePtr, 0#1 ++ a⟩ s) := by
  unfold execBusSelR at h
  split at h
  · rename_i hs
    obtain ⟨addr, ha, h⟩ := withLatch_next h
    obtain ⟨i, hi, h⟩ := withLatch_next h
    split at h
    · rename_i he; exact ⟨hs, addr, i, ha, hi, he, (next_inj h).symm⟩
    · cases h
  · cases h

/-- BUS_WR_DATA: on to the next byte, or MemWrite returns (41_channel.md R128). -/
theorem execBusWrData_next {d : Byte} {s t : State} (h : execBusWrData d s = .next t) :
    s.chSt = .wData ∧ ∃ out n i, s.chOut = .val out ∧ s.chN = .val n ∧ s.chI = .val i ∧ i.toNat < n.toNat ∧
      byteAt out n.toNat i.toNat = d ∧
      ((i.toNat + 1 < n.toNat ∧ t = enter .wPoll1 { emit ⟨.write, .writePtr, d⟩ s with chI := .val (i + 1) }) ∨
        (¬i.toNat + 1 < n.toNat ∧ writeReturn out (enter .idle (emit ⟨.write, .writePtr, d⟩ s)) = .next t)) := by
  unfold execBusWrData at h
  split at h
  · rename_i hs
    obtain ⟨out, ho, h⟩ := withLatch_next h
    obtain ⟨n, hn, h⟩ := withLatch_next h
    obtain ⟨i, hi, h⟩ := withLatch_next h
    split at h
    · rename_i hb
      refine ⟨hs, out, n, i, ho, hn, hi, hb.1, hb.2, ?_⟩
      split at h
      · rename_i hlt; exact .inl ⟨hlt, (next_inj h).symm⟩
      · rename_i hlt; exact .inr ⟨hlt, h⟩
    · cases h
  · cases h

/-- BUS_RD_DATA: on to the next byte, or MemRead returns (41_channel.md R130). -/
theorem execBusRdData_next {d : Byte} {s t : State} (h : execBusRdData d s = .next t) :
    s.chSt = .rRead ∧ ∃ acc n i, s.chAcc = .val acc ∧ s.chN = .val n ∧ s.chI = .val i ∧ i.toNat < n.toNat ∧
      ((i.toNat + 1 < n.toNat ∧
          t = enter .rPoll1
            { emit ⟨.read, .readData, d⟩ s with chAcc := .val (shiftInByte acc d), chI := .val (i + 1) }) ∨
        (¬i.toNat + 1 < n.toNat ∧
          readReturn (shiftInByte acc d)
            (enter .idle { emit ⟨.read, .readData, d⟩ s with chAcc := .val (shiftInByte acc d) }) = .next t)) := by
  unfold execBusRdData at h
  split at h
  · rename_i hs
    obtain ⟨acc, ho, h⟩ := withLatch_next h
    obtain ⟨n, hn, h⟩ := withLatch_next h
    obtain ⟨i, hi, h⟩ := withLatch_next h
    split at h
    · rename_i hb
      refine ⟨hs, acc, n, i, ho, hn, hi, hb, ?_⟩
      dsimp only at h
      split at h
      · rename_i hlt; exact .inl ⟨hlt, (next_inj h).symm⟩
      · rename_i hlt; exact .inr ⟨hlt, h⟩
    · cases h
  · cases h

/-- A step is a reset, or what `workAgenda` says. -/
theorem step_eq (s : State) :
    step s =
      if resetAsserted s then .next (vrmReset (sampleReset s))
      else match workAgenda (sampleReset s) with
        | .issue i t => exec i t
        | .settled r => r := by
  unfold step agenda
  cases resetAsserted s <;> rfl

end Sys2Proof.Machine
end

