-- ==== Sys2Proof/Laws/Commands.lean ====
section
/-! SUPPORT. What each command's meaning, and each return from a channel procedure, can do when it answers a next state:
the case where it goes on and the faults it takes. -/

namespace Sys2Proof.Machine

/-- VREAD (41_channel.md R135). -/
theorem execVread_next {len : BitVec 5} {addr : Byte} {s t : State} (h : execVread len addr s = .next t) :
    (inRange len addr = true ∧ t = startRead addr len s) ∨
      (inRange len addr = false ∧ t = raise (.addressRange addr len) s) := by
  unfold execVread at h
  cases hr : inRange len addr with
  | true => simp only [hr, if_true] at h; exact .inl ⟨rfl, (next_inj h).symm⟩
  | false => simp only [hr, Bool.false_eq_true, if_false] at h; exact .inr ⟨rfl, (next_inj h).symm⟩

/-- VWRITE (41_channel.md R136). -/
theorem execVwrite_next {len : BitVec 5} {addr : Byte} {s t : State} (h : execVwrite len addr s = .next t) :
    (inRange len addr = true ∧ ∃ c, s.seqCmd = .val c ∧ t = startWrite addr len (opdLow c.opd (8 * len.toNat)) s) ∨
      (inRange len addr = false ∧ t = raise (.addressRange addr len) s) := by
  unfold execVwrite at h
  cases hr : inRange len addr with
  | true =>
    simp only [hr, if_true] at h
    obtain ⟨c, hc, h⟩ := withLatch_next h
    exact .inl ⟨rfl, c, hc, (next_inj h).symm⟩
  | false => simp only [hr, Bool.false_eq_true, if_false] at h; exact .inr ⟨rfl, (next_inj h).symm⟩

/-- RDREG (44_register_ops.md R210). -/
theorem execRdreg_next {reg : BitVec 3} {s t : State} (h : execRdreg reg s = .next t) :
    t = raise (.noSuchRegister reg) s ∨
      ∃ r, lookupRegister s.par.masks reg = .ok r ∧ t = startRead r.addr (registerLen r) s := by
  rcases withRegister_next h with ⟨_, h⟩ | ⟨r, hr, h⟩
  · exact .inl h
  · exact .inr ⟨r, hr, (next_inj h).symm⟩

/-- WRREG (44_register_ops.md R214). -/
theorem execWrreg_next {reg : BitVec 3} {s t : State} (h : execWrreg reg s = .next t) :
    (∃ info, t = raise info s) ∨
      ∃ r c, lookupRegister s.par.masks reg = .ok r ∧ r.access = .rw ∧ s.seqCmd = .val c ∧
        t = startWrite r.addr (registerLen r) (regMask r c.opd.toNat) (dropSnapshotOf reg s) := by
  rcases withRegister_next h with ⟨_, h⟩ | ⟨r, hr, h⟩
  · exact .inl ⟨_, h⟩
  · cases ha : r.access with
    | ro => simp only [ha] at h; exact .inl ⟨_, (next_inj h).symm⟩
    | rw =>
      simp only [ha] at h
      obtain ⟨c, hc, h⟩ := withLatch_next h
      exact .inr ⟨r, c, hr, ha, hc, (next_inj h).symm⟩

/-- FDEC (44_register_ops.md R212). -/
theorem execFdec_next {reg fld : BitVec 3} {s t : State} (h : execFdec reg fld s = .next t) :
    (∃ info, t = raise info s) ∨
      ∃ r f d v, lookupField s.par.masks reg fld = .ok (r, f) ∧ s.snapV = true ∧ s.snapR = .val reg ∧
        s.snapD = .val d ∧ fieldDecode f (opdLow d r.width) = some v ∧ t = finishOk { s with rval := v } := by
  rcases withField_next h with ⟨info, _, h⟩ | ⟨r, f, hr, h⟩
  · exact .inl ⟨_, h⟩
  · split at h
    · rename_i hs
      obtain ⟨d, hd, h⟩ := withLatch_next h
      cases hv : fieldDecode f (opdLow d r.width) with
      | none => simp only [hv] at h; exact .inl ⟨_, (next_inj h).symm⟩
      | some v => simp only [hv] at h; exact .inr ⟨r, f, d, v, hr, hs.1, hs.2, hd, hv, (next_inj h).symm⟩
    · exact .inl ⟨_, (next_inj h).symm⟩

/-- FDECR (42_codec.md R156). -/
theorem execFdecr_next {reg fld : BitVec 3} {s t : State} (h : execFdecr reg fld s = .next t) :
    (∃ info, t = raise info s) ∨
      ∃ r f c v, lookupField s.par.masks reg fld = .ok (r, f) ∧ s.seqCmd = .val c ∧
        fieldDecode f (opdLow c.opd r.width) = some v ∧ t = finishOk { s with rval := v } := by
  rcases withField_next h with ⟨info, _, h⟩ | ⟨r, f, hr, h⟩
  · exact .inl ⟨_, h⟩
  · obtain ⟨c, hc, h⟩ := withLatch_next h
    cases hv : fieldDecode f (opdLow c.opd r.width) with
    | none => simp only [hv] at h; exact .inl ⟨_, (next_inj h).symm⟩
    | some v => simp only [hv] at h; exact .inr ⟨r, f, c, v, hr, hc, hv, (next_inj h).symm⟩

/-- FENC (42_codec.md R157). -/
theorem execFenc_next {reg fld : BitVec 3} {s t : State} (h : execFenc reg fld s = .next t) :
    (∃ info, t = raise info s) ∨
      ∃ r f c bits, lookupField s.par.masks reg fld = .ok (r, f) ∧ s.seqCmd = .val c ∧
        fieldEncode f r.width c.opv = some bits ∧ t = finishOk { s with rdata := .val (zext192 bits) } := by
  rcases withField_next h with ⟨info, _, h⟩ | ⟨r, f, hr, h⟩
  · exact .inl ⟨_, h⟩
  · obtain ⟨c, hc, h⟩ := withLatch_next h
    cases hv : fieldEncode f r.width c.opv with
    | none => simp only [hv] at h; exact .inl ⟨_, (next_inj h).symm⟩
    | some v => simp only [hv] at h; exact .inr ⟨r, f, c, v, hr, hc, hv, (next_inj h).symm⟩

/-- FINS (42_codec.md R158). -/
theorem execFins_next {reg fld : BitVec 3} {s t : State} (h : execFins reg fld s = .next t) :
    (∃ info, t = raise info s) ∨
      ∃ r f c bits, lookupField s.par.masks reg fld = .ok (r, f) ∧ s.seqCmd = .val c ∧
        fieldEncode f r.width c.opv = some bits ∧
        t = finishOk { s with rdata := .val (zext192 (merge f r.width (opdLow c.opd r.width) bits)) } := by
  rcases withField_next h with ⟨info, _, h⟩ | ⟨r, f, hr, h⟩
  · exact .inl ⟨_, h⟩
  · obtain ⟨c, hc, h⟩ := withLatch_next h
    cases hv : fieldEncode f r.width c.opv with
    | none => simp only [hv] at h; exact .inl ⟨_, (next_inj h).symm⟩
    | some v => simp only [hv] at h; exact .inr ⟨r, f, c, v, hr, hc, hv, (next_inj h).symm⟩

/-- RDFLD (44_register_ops.md R216). -/
theorem execRdfld_next {reg fld : BitVec 3} {s t : State} (h : execRdfld reg fld s = .next t) :
    (∃ info, t = raise info s) ∨
      ∃ r f, lookupField s.par.masks reg fld = .ok (r, f) ∧ t = startRead r.addr (registerLen r) s := by
  rcases withField_next h with ⟨info, _, h⟩ | ⟨r, f, hr, h⟩
  · exact .inl ⟨_, h⟩
  · exact .inr ⟨r, f, hr, (next_inj h).symm⟩

/-- RDFLD, after its MemRead (44_register_ops.md R216). -/
theorem rdfldReturn_next {reg fld : BitVec 3} {v : Raw} {s t : State} (h : rdfldReturn reg fld v s = .next t) :
    (∃ info, lookupField s.par.masks reg fld = .error info ∧ t = raise info s) ∨
      ∃ r f, lookupField s.par.masks reg fld = .ok (r, f) ∧
        ((∃ x, fieldDecode f (opdLow v r.width) = some x ∧
            t = finishOk { takeSnapshot reg v s with rdata := .val v, rval := x }) ∨
          (fieldDecode f (opdLow v r.width) = none ∧
            t = raise (.invalidFieldValue .decode reg fld (.int (extractField f (opdLow v r.width))))
              { takeSnapshot reg v s with rdata := .val v })) := by
  rcases withField_next h with ⟨info, he, h⟩ | ⟨r, f, hr, h⟩
  · exact .inl ⟨_, he, h⟩
  · refine .inr ⟨r, f, hr, ?_⟩
    cases hv : fieldDecode f (opdLow v r.width) with
    | none => simp only [hv] at h; exact .inr ⟨rfl, (next_inj h).symm⟩
    | some x => simp only [hv] at h; exact .inl ⟨x, rfl, (next_inj h).symm⟩

/-- WRFLD (44_register_ops.md R218). -/
theorem execWrfld_next {reg fld : BitVec 3} {s t : State} (h : execWrfld reg fld s = .next t) :
    (∃ info, t = raise info s) ∨
      ∃ r f c bits, lookupField s.par.masks reg fld = .ok (r, f) ∧ r.access = .rw ∧ s.seqCmd = .val c ∧
        fieldEncode f r.width c.opv = some bits ∧
        t = startRead r.addr (registerLen r) (dropSnapshotOf reg s) := by
  rcases withField_next h with ⟨info, _, h⟩ | ⟨r, f, hr, h⟩
  · exact .inl ⟨_, h⟩
  · cases ha : r.access with
    | ro => simp only [ha] at h; exact .inl ⟨_, (next_inj h).symm⟩
    | rw =>
      simp only [ha] at h
      obtain ⟨c, hc, h⟩ := withLatch_next h
      cases hv : fieldEncode f r.width c.opv with
      | none => simp only [hv] at h; exact .inl ⟨_, (next_inj h).symm⟩
      | some b => simp only [hv] at h; exact .inr ⟨r, f, c, b, hr, ha, hc, hv, (next_inj h).symm⟩

/-- WRFLD, between its read and its write (44_register_ops.md R218). -/
theorem wrfldMerge_next {reg fld : BitVec 3} {opv : Sem} {old : Raw} {s t : State}
    (h : wrfldMerge reg fld opv old s = .next t) :
    (∃ info, lookupField s.par.masks reg fld = .error info ∧ t = raise info s) ∨
      ∃ r f bits, lookupField s.par.masks reg fld = .ok (r, f) ∧ fieldEncode f r.width opv = some bits ∧
        t = startWrite r.addr (registerLen r) (merge f r.width old.toNat bits) s := by
  rcases withField_next h with ⟨info, he, h⟩ | ⟨r, f, hr, h⟩
  · exact .inl ⟨_, he, h⟩
  · cases hv : fieldEncode f r.width opv with
    | none => simp only [hv] at h; cases h
    | some b => simp only [hv] at h; exact .inr ⟨r, f, b, hr, hv, (next_inj h).symm⟩

/-- WAITRDY (44_register_ops.md R220). -/
theorem execWaitrdy_next {s t : State} (h : execWaitrdy s = .next t) :
    ∃ c, s.seqCmd = .val c ∧
      ((numericOperand c.opv = none ∧
          t = raise (.invalidFieldValue .timeout controlIndex dataReadyIndex c.opv) s) ∨
        (∃ x, numericOperand c.opv = some x ∧ t = startWaitPoll { (now s).2 with seqT0 := .val (now s).1 })) := by
  obtain ⟨c, hc, h⟩ := withLatch_next h
  refine ⟨c, hc, ?_⟩
  cases hn : numericOperand c.opv with
  | none => simp only [hn] at h; exact .inl ⟨rfl, (next_inj h).symm⟩
  | some x => simp only [hn] at h; exact .inr ⟨x, rfl, (next_inj h).symm⟩

/-- WAITRDY, after one poll: ready, or on to the time test (44_register_ops.md R220). -/
theorem waitrdyPolled_eq (v : Raw) (s : State) :
    waitrdyPolled v s =
      .next (if extractField (dataReadyField s.par.masks) v.toNat = 1 then
        finishOk { takeSnapshot controlIndex v s with rdata := .val v, rval := .int 1 }
      else { takeSnapshot controlIndex v s with rdata := .val v, seqSt := .wait }) := by
  unfold waitrdyPolled
  simp only [dataReadyField_decodes, Sem.int.injEq]
  by_cases h : extractField (dataReadyField s.par.masks) v.toNat = 1
  · simp [h]
  · have : ¬((extractField (dataReadyField s.par.masks) v.toNat : Int) = 1) := by omega
    simp [h, this]

/-- SRESET (44_register_ops.md R222). -/
theorem execSreset_eq (s : State) : execSreset s = .next (startRead controlAddr 1 { s with snapV := false }) := by
  unfold execSreset; rw [resetField_encodes]

/-- SRESET, between its read and its write (44_register_ops.md R222). -/
theorem sresetMerge_eq (old : Raw) (s : State) :
    sresetMerge old s =
      .next (startWrite controlAddr 1
        (merge (resetField s.par.masks) controlWidth old.toNat (placeBits (resetField s.par.masks) controlWidth 1)) s) := by
  unfold sresetMerge; rw [resetField_encodes]

end Sys2Proof.Machine
end

