-- ==== Sys2Proof/Laws/PerInstr.lean ====
section
/-! SUPPORT. The per-instruction family LegalEvent: the bus event of an instruction, if it is one, is of the five kinds
(30_encoding.md R97, R99), and its word is the event's. -/

namespace Sys2Proof.Laws

open Sys2Proof Sys2Proof.Machine

/-- The statement of the family for one instruction. -/
def LegalEvent.Statement (i : Instr) : Prop :=
  ∀ e, i.busEvent = some e → legalEvent e = true ∧ encode i = .bus (packBus e)

theorem LegalEvent.nop : LegalEvent.Statement .nop := by intro e h; cases h
theorem LegalEvent.vread (len : BitVec 5) (addr : Byte) : LegalEvent.Statement (.vread len addr) := by intro e h; cases h
theorem LegalEvent.vwrite (len : BitVec 5) (addr : Byte) : LegalEvent.Statement (.vwrite len addr) := by intro e h; cases h
theorem LegalEvent.rdreg (reg : BitVec 3) : LegalEvent.Statement (.rdreg reg) := by intro e h; cases h
theorem LegalEvent.wrreg (reg : BitVec 3) : LegalEvent.Statement (.wrreg reg) := by intro e h; cases h
theorem LegalEvent.fdec (reg fld : BitVec 3) : LegalEvent.Statement (.fdec reg fld) := by intro e h; cases h
theorem LegalEvent.fdecr (reg fld : BitVec 3) : LegalEvent.Statement (.fdecr reg fld) := by intro e h; cases h
theorem LegalEvent.fenc (reg fld : BitVec 3) : LegalEvent.Statement (.fenc reg fld) := by intro e h; cases h
theorem LegalEvent.fins (reg fld : BitVec 3) : LegalEvent.Statement (.fins reg fld) := by intro e h; cases h
theorem LegalEvent.rdfld (reg fld : BitVec 3) : LegalEvent.Statement (.rdfld reg fld) := by intro e h; cases h
theorem LegalEvent.wrfld (reg fld : BitVec 3) : LegalEvent.Statement (.wrfld reg fld) := by intro e h; cases h
theorem LegalEvent.waitrdy : LegalEvent.Statement .waitrdy := by intro e h; cases h
theorem LegalEvent.sreset : LegalEvent.Statement .sreset := by intro e h; cases h
theorem LegalEvent.busRdStatus (b : Byte) : LegalEvent.Statement (.busRdStatus b) := by
  intro e h; cases h; exact ⟨rfl, rfl⟩
theorem LegalEvent.busSelW (a : BitVec 7) : LegalEvent.Statement (.busSelW a) := by
  intro e h; cases h; exact ⟨rfl, rfl⟩
theorem LegalEvent.busSelR (a : BitVec 7) : LegalEvent.Statement (.busSelR a) := by
  intro e h; cases h; exact ⟨rfl, rfl⟩
theorem LegalEvent.busWrData (b : Byte) : LegalEvent.Statement (.busWrData b) := by
  intro e h; cases h; exact ⟨rfl, rfl⟩
theorem LegalEvent.busRdData (b : Byte) : LegalEvent.Statement (.busRdData b) := by
  intro e h; cases h; exact ⟨rfl, rfl⟩

end Sys2Proof.Laws
end

