-- ==== Sys2Proof/Laws/Step.lean ====
section
/-! SUPPORT. What one step can do, said once: a reset, waiting, a refused or faulting command, an instruction, a time
test. -/

namespace Sys2Proof.Machine

/-- Accepting a command: MaskOverflow, IllegalCommand, or the command runs (60_exceptions.md R252). -/
theorem accept_cases (c : Command) (rest : List Command) (s : State) :
    (s.cfgOk = false ∧ configCheck s.par.masks = none ∧ accept c rest s = .settled (.fault .cfgInconsistent)) ∨
      (s.cfgOk = false ∧ ∃ reg fld, configCheck s.par.masks = some (reg, fld) ∧
        accept c rest s = .settled (.next (raise (.maskOverflow reg fld) (acceptCommand c rest s)))) ∨
      (s.cfgOk = true ∧ (∃ e, decodeCommand c.cmd = .error e) ∧
        accept c rest s = .settled (.next (raise (.illegalCommand c.cmd) (acceptCommand c rest s)))) ∨
      (s.cfgOk = true ∧ ∃ i, decodeCommand c.cmd = .ok i ∧ accept c rest s = .issue i (acceptCommand c rest s)) := by
  unfold accept
  cases hc : s.cfgOk with
  | true =>
    cases hd : decodeCommand c.cmd with
    | error e => exact .inr (.inr (.inl ⟨rfl, ⟨e, rfl⟩, rfl⟩))
    | ok i => exact .inr (.inr (.inr ⟨rfl, i, rfl, rfl⟩))
  | false =>
    cases hk : configCheck s.par.masks with
    | none => exact .inl ⟨rfl, rfl, rfl⟩
    | some p => exact .inr (.inl ⟨rfl, p.1, p.2, rfl, rfl⟩)

/-- The channel's next event, for each step of the handshake (41_channel.md R122). -/
theorem channelEvent_issue {s t : State} {i : Instr} (h : channelEvent s = .issue i t) :
    (isPoll s.chSt = true ∧ i = .busRdStatus (sensorAnswer .status s).1 ∧ t = (sensorAnswer .status s).2) ∨
      (s.chSt = .rRead ∧ i = .busRdData (sensorAnswer .readData s).1 ∧ t = (sensorAnswer .readData s).2) ∨
      (s.chSt = .wSel ∧ t = s ∧ ∃ addr, s.chAddr = .val addr ∧ i = .busSelW ((writeSelection addr).setWidth 7)) ∨
      (s.chSt = .rSel ∧ t = s ∧ ∃ addr k, s.chAddr = .val addr ∧ s.chI = .val k ∧
        i = .busSelR ((readSelection addr k).setWidth 7)) ∨
      (s.chSt = .wData ∧ t = s ∧ ∃ out n k, s.chOut = .val out ∧ s.chN = .val n ∧ s.chI = .val k ∧
        i = .busWrData (byteAt out n.toNat k.toNat)) := by
  unfold channelEvent issueRead at h
  cases hs : s.chSt <;> simp only [hs] at h
  case idle => cases h
  case wPoll1 => cases h; exact .inl ⟨rfl, rfl, rfl⟩
  case wPoll2 => cases h; exact .inl ⟨rfl, rfl, rfl⟩
  case rPoll1 => cases h; exact .inl ⟨rfl, rfl, rfl⟩
  case rPoll2 => cases h; exact .inl ⟨rfl, rfl, rfl⟩
  case rRead => cases h; exact .inr (.inl ⟨rfl, rfl, rfl⟩)
  case wSel =>
    cases ha : s.chAddr <;> simp only [ha] at h <;> cases h
    exact .inr (.inr (.inl ⟨rfl, rfl, _, rfl, rfl⟩))
  case rSel =>
    cases ha : s.chAddr <;> cases hi : s.chI <;> simp only [ha, hi] at h <;> cases h
    exact .inr (.inr (.inr (.inl ⟨rfl, rfl, _, _, rfl, rfl, rfl⟩)))
  case wData =>
    cases ho : s.chOut <;> cases hn : s.chN <;> cases hi : s.chI <;> simp only [ho, hn, hi] at h <;> cases h
    exact .inr (.inr (.inr (.inr ⟨rfl, rfl, _, _, _, rfl, rfl, rfl, rfl⟩)))

/-- What the channel settles without an event is no next state. -/
theorem channelEvent_settled {s : State} {r : Result} (h : channelEvent s = .settled r) (t : State) : r ≠ .next t := by
  unfold channelEvent issueRead at h
  cases hs : s.chSt <;> simp only [hs] at h
  case idle => cases h; exact nofun
  case wSel => cases ha : s.chAddr <;> simp only [ha] at h <;> cases h; exact nofun
  case rSel => cases ha : s.chAddr <;> cases hi : s.chI <;> simp only [ha, hi] at h <;> cases h <;> exact nofun
  case wData =>
    cases ho : s.chOut <;> cases hn : s.chN <;> cases hi : s.chI <;> simp only [ho, hn, hi] at h <;> cases h <;>
      exact nofun
  all_goals cases h

/-- What one step can do when it answers a next state. -/
theorem step_next {s t : State} (h : step s = .next t) :
    (resetAsserted s = true ∧ t = vrmReset (sampleReset s)) ∨
      (resetAsserted s = false ∧
        ((s.seqSt = .idle ∧ s.env.port = [] ∧ t = sampleReset s) ∨
          (s.seqSt = .idle ∧ ∃ c rest, s.env.port = c :: rest ∧
            ((s.cfgOk = false ∧ ∃ reg fld, configCheck s.par.masks = some (reg, fld) ∧
                t = raise (.maskOverflow reg fld) (acceptCommand c rest (sampleReset s))) ∨
              (s.cfgOk = true ∧ (∃ e, decodeCommand c.cmd = .error e) ∧
                t = raise (.illegalCommand c.cmd) (acceptCommand c rest (sampleReset s))) ∨
              (s.cfgOk = true ∧ ∃ i, decodeCommand c.cmd = .ok i ∧
                exec i (acceptCommand c rest (sampleReset s)) = .next t))) ∨
          (s.seqSt = .run ∧ ∃ i u, channelEvent (sampleReset s) = .issue i u ∧ exec i u = .next t) ∨
          (s.seqSt = .wait ∧ waitTick (sampleReset s) = .next t) ∨
          (s.seqSt = .settle ∧ settleTick (sampleReset s) = .next t))) := by
  rw [step_eq] at h
  cases hr : resetAsserted s with
  | true => simp only [hr, if_true] at h; exact .inl ⟨rfl, (next_inj h).symm⟩
  | false =>
    simp only [hr, Bool.false_eq_true, if_false] at h
    refine .inr ⟨rfl, ?_⟩
    unfold workAgenda idleAgenda at h
    simp only [sampleReset_seqSt, sampleReset_env] at h
    cases hq : s.seqSt <;> simp only [hq] at h
    case idle =>
      cases hp : s.env.port with
      | nil => simp only [hp] at h; exact .inl ⟨rfl, rfl, (next_inj h).symm⟩
      | cons c rest =>
        simp only [hp] at h
        refine .inr (.inl ⟨rfl, c, rest, rfl, ?_⟩)
        rcases accept_cases c rest (sampleReset s) with ⟨hk, _, ha⟩ | ⟨hk, reg, fld, hc, ha⟩ | ⟨hk, he, ha⟩ | ⟨hk, i, hd, ha⟩
        · rw [ha] at h; cases h
        · rw [ha] at h; exact .inl ⟨hk, reg, fld, hc, (next_inj h).symm⟩
        · rw [ha] at h; exact .inr (.inl ⟨hk, he, (next_inj h).symm⟩)
        · rw [ha] at h; exact .inr (.inr ⟨hk, i, hd, h⟩)
    case run =>
      refine .inr (.inr (.inl ⟨rfl, ?_⟩))
      cases hc : channelEvent (sampleReset s) with
      | issue i u => simp only [hc] at h; exact ⟨i, u, rfl, h⟩
      | settled r => simp only [hc] at h; exact absurd h (channelEvent_settled hc t)
    case wait => exact .inr (.inr (.inr (.inl ⟨rfl, h⟩)))
    case settle => exact .inr (.inr (.inr (.inr ⟨rfl, h⟩)))

/-- WAITRDY's time test: timed out, or the next poll starts (44_register_ops.md R220). -/
theorem waitTick_next {s t : State} (h : waitTick s = .next t) :
    ∃ c t0 limit, s.seqCmd = .val c ∧ s.seqT0 = .val t0 ∧ numericOperand c.opv = some limit ∧
      ((extLt limit (elapsed (now s).1 t0) = true ∧
          t = finishOk { (now s).2 with rval := .int 0, seqSt := .run }) ∨
        (extLt limit (elapsed (now s).1 t0) = false ∧ t = startWaitPoll (now s).2)) := by
  obtain ⟨c, hc, h⟩ := withLatch_next h
  obtain ⟨t0, ht, h⟩ := withLatch_next h
  cases hn : numericOperand c.opv with
  | none => simp [hn] at h
  | some limit =>
    simp only [hn] at h
    refine ⟨c, t0, limit, hc, ht, hn, ?_⟩
    cases hl : extLt limit (elapsed (now s).1 t0) with
    | true => simp only [hl, if_true] at h; exact .inl ⟨rfl, (next_inj h).symm⟩
    | false => simp only [hl, Bool.false_eq_true, if_false] at h; exact .inr ⟨rfl, (next_inj h).symm⟩

/-- The settle's time test: it ends, or waits on (44_register_ops.md R222). -/
theorem settleTick_next {s t : State} (h : settleTick s = .next t) :
    ∃ t0, s.seqT0 = .val t0 ∧
      ((extLe (intExt Config.settleTime) (elapsed (now s).1 t0) = true ∧
          t = finishOk { (now s).2 with seqSt := .run }) ∨
        (extLe (intExt Config.settleTime) (elapsed (now s).1 t0) = false ∧ t = (now s).2)) := by
  obtain ⟨t0, ht, h⟩ := withLatch_next h
  refine ⟨t0, ht, ?_⟩
  cases hl : extLe (intExt Config.settleTime) (elapsed (now s).1 t0) with
  | true => simp only [hl, if_true] at h; exact .inl ⟨rfl, (next_inj h).symm⟩
  | false => simp only [hl, Bool.false_eq_true, if_false] at h; exact .inr ⟨rfl, (next_inj h).symm⟩

end Sys2Proof.Machine
end

