-- ==== Sys2Proof/Machine/Assembly.lean ====
section
/-! DEFINITION. The assembly text of a command (30_encoding.md R101): the mnemonic, then its operands. Registers and
fields are written by index, integers in C notation, a finite binary64 value by its exact decimal expansion (log 24). -/

namespace Sys2Proof.Machine

/-- A decimal number padded with zeros on the left to `n` digits. -/
def padDecimal (n v : Nat) : String :=
  String.ofList (List.replicate (n - (toString v).length) '0') ++ toString v

/-- Eight hexadecimal digits of a 32-bit pattern. -/
def hex8 (v : BitVec 32) : String :=
  String.ofList ((List.range 8).map fun i => Nat.digitChar ((v.toNat >>> (4 * (7 - i))) % 16))

/-- A digit string without its trailing zeros, but at least one digit. -/
def trimZeros (digits : String) : String :=
  let kept := (digits.toList.reverse.dropWhile (· == '0')).reverse
  if kept.isEmpty then "0" else String.ofList kept

/-- The exact decimal expansion of a finite binary64 value, or the name of what it is. -/
def f64Text (x : F64) : String :=
  if f64IsNaN x then "NaN"
  else (if f64Neg x then "-" else "") ++
    (if f64IsInf x then "inf"
    else toString (f64Mag x >>> 1074) ++ "." ++ trimZeros (padDecimal 1074 ((f64Mag x % 2 ^ 1074) * 5 ^ 1074)))

/-- The text of a semantic operand (30_encoding.md R101). -/
def semText : Sem → String
  | .int n => "Int(" ++ toString n ++ ")"
  | .f64 x => "F64(" ++ f64Text x ++ ")"
  | .f32 p => "F32(0x" ++ hex8 p ++ ")"
  | .ver maj min sub =>
    "Ver(" ++ toString maj.toNat ++ "," ++ toString min.toNat ++ "," ++ toString sub.toNat ++ ")"
  | .undef => "UNDEF"

/-- `reg.fld` by index (30_encoding.md R101). -/
def fieldText (reg fld : BitVec 3) : String := toString reg.toNat ++ "." ++ toString fld.toNat

/-- The assembly text of a command with its operands (30_encoding.md R101); a bus event has none. -/
def assembly (i : Instr) (opd : Raw) (opv : Sem) : Option String :=
  match i with
  | .nop => some "NOP"
  | .vread len addr => some ("VREAD " ++ toString addr.toNat ++ ", " ++ toString len.toNat)
  | .vwrite len addr =>
    some ("VWRITE " ++ toString addr.toNat ++ ", " ++ toString len.toNat ++ ", " ++ toString opd.toNat)
  | .rdreg reg => some ("RDREG " ++ toString reg.toNat)
  | .wrreg reg => some ("WRREG " ++ toString reg.toNat ++ ", " ++ toString opd.toNat)
  | .fdec reg fld => some ("FDEC " ++ fieldText reg fld)
  | .fdecr reg fld => some ("FDECR " ++ fieldText reg fld ++ ", " ++ toString opd.toNat)
  | .fenc reg fld => some ("FENC " ++ fieldText reg fld ++ ", " ++ semText opv)
  | .fins reg fld => some ("FINS " ++ fieldText reg fld ++ ", " ++ toString opd.toNat ++ ", " ++ semText opv)
  | .rdfld reg fld => some ("RDFLD " ++ fieldText reg fld)
  | .wrfld reg fld => some ("WRFLD " ++ fieldText reg fld ++ ", " ++ semText opv)
  | .waitrdy => some ("WAITRDY " ++ semText opv)
  | .sreset => some "SRESET"
  | .busRdStatus _ => none
  | .busSelW _ => none
  | .busSelR _ => none
  | .busWrData _ => none
  | .busRdData _ => none

end Sys2Proof.Machine
end

