-- ==== Sys2Proof/Tests/Slice0.lean ====
section
/-! SUPPORT. Tests on fixed values. Expected results come from the spec: 95_test_vectors.md (named in each comment), or the
bits of 30_encoding.md R90, R91 and R97 written out. After them, for each statement with hypotheses, a state and operands
that meet them. -/

namespace Sys2Proof.Tests

set_option Elab.async false

open Sys2Proof Sys2Proof.Machine
open Sys2Proof.Config (BusEvent Field Register)

/-! ### Helpers -/

/-- What a result shows of its next state; none where the step stops. -/
def shows {α : Type} (r : Result) (look : State → α) : Option α :=
  match r with
  | .next t => some (look t)
  | .fault _ => none
  | .refused _ => none

/-- The state right after a command was accepted from the reset state. -/
def running (w : CmdWord) (opd : Raw) (opv : Sem) : State :=
  { State.reset with seqSt := .run, seqCmd := .val ⟨w, opd, opv⟩ }

/-- A running command whose channel is at byte `i` of an `n`-byte access at `addr`; CH_OUT and CH_ACC hold `v`. -/
def channelAt (w : CmdWord) (opv : Sem) (st : ChSt) (addr : Byte) (n i : BitVec 5) (v : Raw) : State :=
  { running w 0 opv with
    chSt := st, chAddr := .val addr, chN := .val n, chI := .val i, chOut := .val v, chAcc := .val v }

/-- The state with other sensor answers. -/
def hearing (answers : List Byte) (s : State) : State := { s with env := { s.env with sensorIn := answers } }

/-- The state with other time readings, the last one before them given. -/
def timed (last : F64) (readings : List F64) (s : State) : State :=
  { s with env := { s.env with timeIn := readings, lastNow := last } }

/-- The reset state with a snapshot (10_state.md R27). -/
def snapped (reg : BitVec 3) (v : Raw) : State :=
  { State.reset with snapV := true, snapR := .val reg, snapD := .val v }

/-- The reset state with commands on the port. -/
def offered (cs : List Command) : State := { State.reset with env := { Env.quiet with port := cs } }

/-- Masks that pass the configuration check and give LED_CONTROL.illumination_current_limit_ma codes with no key. -/
def wideIllumMasks : Config.FieldMasks := { illuminationCurrentLimitMa := 0xF0 }

/-- The state of a VRM with those masks. -/
def wideIllum (s : State) : State := { s with par := { s.par with masks := wideIllumMasks } }

/-- The state with a poll bound. -/
def bounded (l : Nat) (s : State) : State := { s with par := { s.par with pollLimit := .bound l } }

/-! ### Decoding: words written out from 30_encoding.md R90, R91 (OP REG FLD LEN ADDR RSV) and R97 -/

theorem test_decode_nop : decodeCommand 0b00000_000_000_00000_00000000_00000000 = .ok .nop := by decide
theorem test_decode_vread : decodeCommand 0b00001_000_000_11000_01101000_00000000 = .ok (.vread 24 0x68) := by decide
theorem test_decode_vwrite : decodeCommand 0b00010_000_000_00001_00000101_00000000 = .ok (.vwrite 1 0x05) := by decide
theorem test_decode_rdreg : decodeCommand 0b00011_110_000_00000_00000000_00000000 = .ok (.rdreg 6) := by decide
theorem test_decode_wrreg : decodeCommand 0b00100_010_000_00000_00000000_00000000 = .ok (.wrreg 2) := by decide
theorem test_decode_fdec : decodeCommand 0b00101_110_101_00000_00000000_00000000 = .ok (.fdec 6 5) := by decide
theorem test_decode_fdecr : decodeCommand 0b00110_001_010_00000_00000000_00000000 = .ok (.fdecr 1 2) := by decide
theorem test_decode_fenc : decodeCommand 0b00111_010_000_00000_00000000_00000000 = .ok (.fenc 2 0) := by decide
theorem test_decode_fins : decodeCommand 0b01000_001_010_00000_00000000_00000000 = .ok (.fins 1 2) := by decide
theorem test_decode_rdfld : decodeCommand 0b01001_000_010_00000_00000000_00000000 = .ok (.rdfld 0 2) := by decide
theorem test_decode_wrfld : decodeCommand 0b01010_001_010_00000_00000000_00000000 = .ok (.wrfld 1 2) := by decide
theorem test_decode_waitrdy : decodeCommand 0b01011_000_000_00000_00000000_00000000 = .ok .waitrdy := by decide
theorem test_decode_sreset : decodeCommand 0b01100_000_000_00000_00000000_00000000 = .ok .sreset := by decide
theorem test_decode_busRdStatus : decodeBus false 0b0_00_00000010 = .ok (.busRdStatus 0x02) := by decide
theorem test_decode_busSelW : decodeBus false 0b1_01_10000101 = .ok (.busSelW 0x05) := by decide
theorem test_decode_busSelR : decodeBus false 0b1_01_00010100 = .ok (.busSelR 0x14) := by decide
theorem test_decode_busWrData : decodeBus true 0b1_01_11111011 = .ok (.busWrData 0xFB) := by decide
theorem test_decode_busRdData : decodeBus false 0b0_10_11111110 = .ok (.busRdData 0xFE) := by decide

/-- The illegal words of 95_test_vectors.md section 2, by reason. -/
theorem test_decode_illegal_words :
    decodeCommand 0x68000000 = .error .reservedOp ∧ decodeCommand 0xF8000000 = .error .reservedOp ∧
      decodeCommand 0x00000001 = .error .mustBeZero ∧ decodeCommand 0x08010501 = .error .mustBeZero ∧
      decodeCommand 0x0F010500 = .error .mustBeZero ∧ decodeCommand 0x19010000 = .error .mustBeZero ∧
      decodeCommand 0x58000100 = .error .mustBeZero ∧ decodeCommand 0x27000001 = .error .mustBeZero := by decide

/-- Words in range for the format but not for the hardware decode (30_encoding.md R92). -/
theorem test_decode_out_of_range_words :
    decodeCommand 0x27000000 = .ok (.wrreg 7) ∧ decodeCommand 0x28E00000 = .ok (.fdec 0 7) ∧
      decodeCommand 0x08000000 = .ok (.vread 0 0) := by decide

/-- Physical accesses the VRM never makes (30_encoding.md R99). -/
theorem test_decode_refuses_bus_words :
    decodeBus false 0x100 = .error .noSuchBusWord ∧ decodeBus false 0x300 = .error .noSuchBusWord ∧
      decodeBus true 0x400 = .error .noSuchBusWord ∧ decodeBus false 0x600 = .error .noSuchBusWord ∧
      decodeBus true 0x700 = .error .noSuchBusWord := by decide

/-! ### WellFormed: an ill-formed term for each check, and its well-formed neighbour -/

theorem test_wellFormed_vread_len_zero : (Instr.vread 0 0x00).wellFormed = false := by decide
theorem test_wellFormed_vread_len_above_24 : (Instr.vread 25 0x00).wellFormed = false := by decide
theorem test_wellFormed_vread_past_0x80 :
    (Instr.vread 17 0x70).wellFormed = false ∧ (Instr.vread 16 0x70).wellFormed = true := by decide
theorem test_wellFormed_vwrite :
    (Instr.vwrite 1 0x80).wellFormed = false ∧ (Instr.vwrite 1 0x7F).wellFormed = true := by decide
theorem test_wellFormed_rdreg : (Instr.rdreg 7).wellFormed = false ∧ (Instr.rdreg 6).wellFormed = true := by decide
theorem test_wellFormed_wrreg : (Instr.wrreg 7).wellFormed = false := by decide
theorem test_wellFormed_fdec : (Instr.fdec 0 3).wellFormed = false ∧ (Instr.fdec 0 2).wellFormed = true := by decide
theorem test_wellFormed_fdecr : (Instr.fdecr 1 5).wellFormed = false := by decide
theorem test_wellFormed_fenc : (Instr.fenc 2 1).wellFormed = false := by decide
theorem test_wellFormed_fins : (Instr.fins 4 4).wellFormed = false := by decide
theorem test_wellFormed_rdfld : (Instr.rdfld 5 6).wellFormed = false := by decide
theorem test_wellFormed_wrfld : (Instr.wrfld 7 0).wellFormed = false := by decide

/-! ### One step of each instruction -/

/-- V-RO27: NOP after a fault clears RSTAT and leaves FLOG. -/
theorem test_nop : shows (exec .nop { running 0 0 .undef with rstat := 0x09, flog := 0x0200 })
    (fun t => (t.rstat, t.flog, t.cmdcnt, t.seqSt)) = some (0x00, 0x0200, 1, .idle) := by decide

/-- Section 3, range check: 0x70 + 17 = 0x81. -/
theorem test_vread_past_the_end : shows (exec (.vread 17 0x70) (running 0x08117000 0 .undef))
    (fun t => (t.rstat, t.finfo, t.trace)) = some (0x08, .val (.addressRange 0x70 17), []) := by decide

/-- 41_channel.md R135: the highest admitted access. -/
theorem test_vread_highest : shows (exec (.vread 24 0x68) (running 0x08186800 0 .undef))
    (fun t => (t.chSt, t.chAddr, t.chN, t.chI, t.chAcc)) =
      some (.rPoll1, .val 0x68, .val 24, .val 0, .val 0) := by decide

/-- V-CH4: OPD above 8·LEN bits is ignored, and the most significant byte goes out first. -/
theorem test_vwrite_two_bytes : shows (exec (.vwrite 2 0x10) (running 0x10021000 0x9ABCD .undef))
    (fun t => (t.chSt, t.chAddr, t.chN, t.chOut)) = some (.wPoll1, .val 0x10, .val 2, .val 0xABCD) := by decide

/-- Section 3, range check. -/
theorem test_vwrite_ff : shows (exec (.vwrite 1 0xFF) (running 0x1001FF00 0 .undef))
    (fun t => (t.rstat, t.chSt)) = some (0x08, .idle) := by decide

/-- E6: RDREG CALIBRATED_DATA reads 24 bytes from 0x14. -/
theorem test_rdreg : shows (exec (.rdreg 6) (running 0x1E000000 0 .undef))
    (fun t => (t.chSt, t.chAddr, t.chN)) = some (.rPoll1, .val 0x14, .val 24) := by decide

/-- Section 7: RDREG 7. -/
theorem test_rdreg_missing : shows (exec (.rdreg 7) (running 0x1F000000 0 .undef))
    (fun t => (t.rstat, t.flog, t.finfo)) = some (0x05, 0x0020, .val (.noSuchRegister 7)) := by decide

/-- E3: 0x1FB is masked to eight bits. -/
theorem test_wrreg : shows (exec (.wrreg 2) (running 0x22000000 0x1FB .undef))
    (fun t => (t.chSt, t.chAddr, t.chOut)) = some (.wPoll1, .val 0x05, .val 0xFB) := by decide

/-- V-RO4. -/
theorem test_wrreg_read_only : shows (exec (.wrreg 0) (running 0x20000000 1 .undef))
    (fun t => (t.rstat, t.flog, t.finfo, t.trace)) = some (0x07, 0x0080, .val (.readOnlyRegister 0), []) := by decide

/-- E6: FDEC CALIBRATED_DATA.r. -/
theorem test_fdec : shows (exec (.fdec 6 5) (snapped 6 0x40D3333340B00000408CCCCD40533333400CCCCD3F8CCCCD))
    (fun t => (t.rval, t.rstat)) = some (.f32 0x3F8CCCCD, 0x00) := by decide

/-- V-RO7: the snapshot holds CONTROL. -/
theorem test_fdec_other_snapshot : shows (exec (.fdec 2 0) (snapped 1 0x22))
    (fun t => (t.rstat, t.finfo)) = some (0x09, .val (.noSnapshot 2 true (.val 1))) := by decide

/-- Section 5: FDECR CONTROL.gain_x, 0xA5 is F64(16.0). -/
theorem test_fdecr : shows (exec (.fdecr 1 2) (running 0x31400000 0xA5 .undef)) (fun t => t.rval) =
    some (.f64 0x4030000000000000) := by decide

/-- Section 5: FDECR DATA.v takes the most significant lane, unsigned. -/
theorem test_fdecr_lane : shows (exec (.fdecr 5 0) (running 0x35000000 0x0102030405060708090A0B0C .undef))
    (fun t => t.rval) = some (.int 258) := by decide

/-- E2: FENC INTEGRATION_TIME.ms, F64(90.0) is 0xFB: a binary64 product, truncated. -/
theorem test_fenc_scale : shows (exec (.fenc 2 0) (running 0x3A000000 0 (.f64 0x4056800000000000)))
    (fun t => t.rdata) = some (.val 0xFB) := by decide +kernel

/-- Section 5: FENC CONTROL.measurement_mode, Int(-1) is 0x0C. -/
theorem test_fenc_negative : shows (exec (.fenc 1 3) (running 0x39600000 0 (.int (-1))))
    (fun t => t.rdata) = some (.val 0x0C) := by decide

/-- Section 5: FINS CONTROL.gain_x, 0xFF, Int(1) is the gain 1, code 0. -/
theorem test_fins_gain_one : shows (exec (.fins 1 2) (running 0x41400000 0xFF (.int 1)))
    (fun t => t.rdata) = some (.val 0xCF) := by decide +kernel

/-- Section 5: FINS LED_CONTROL.illumination_enable, 0xC0, Int(1) keeps bits 7:6. -/
theorem test_fins_keeps_unassigned : shows (exec (.fins 4 1) (running 0x44200000 0xC0 (.int 1)))
    (fun t => t.rdata) = some (.val 0xC8) := by decide

/-- V-RO17: RDFLD VERSION.fw_version reads four bytes from 0x00. -/
theorem test_rdfld : shows (exec (.rdfld 0 2) (running 0x48400000 0 .undef))
    (fun t => (t.chSt, t.chAddr, t.chN)) = some (.rPoll1, .val 0x00, .val 4) := by decide

/-- Section 7: WRFLD VERSION.5 reports NoSuchField before ReadOnlyRegister. -/
theorem test_wrfld_priority : shows (exec (.wrfld 0 5) (running 0x50A00000 0 (.f64 0x3FF0000000000000)))
    (fun t => (t.rstat, t.finfo)) = some (0x06, .val (.noSuchField 0 5)) := by decide

/-- V-RO13: the encode fault comes before any bus event. -/
theorem test_wrfld_bad_value : shows (exec (.wrfld 1 0) (running 0x51000000 0 (.f64 0x3FF0000000000000)))
    (fun t => (t.finfo, t.trace)) = some (.val (.invalidFieldValue .encode 1 0 (.f64 0x3FF0000000000000)), []) := by
  decide

/-- V-RO23: a timeout that is not a number. -/
theorem test_waitrdy_nan : shows (exec .waitrdy (running 0x58000000 0 (.f64 0x7FF8000000000000)))
    (fun t => (t.rstat, t.finfo)) = some (0x02, .val (.invalidFieldValue .timeout 1 4 (.f64 0x7FF8000000000000))) := by
  decide

/-- V-RO22: exactly the timeout elapsed does not end the wait; 0.7 s does. -/
theorem test_waitrdy_strictly_greater :
    shows (step (timed 0 [0] { running 0x58000000 0 (.int 0) with seqSt := .wait, seqT0 := .val 0 }))
        (fun t => (t.seqSt, t.chSt, t.rval)) = some (.run, .rPoll1, .undef) ∧
      shows (step (timed 0 [0x3FE6666666666666] { running 0x58000000 0 (.int 0) with seqSt := .wait, seqT0 := .val 0 }))
        (fun t => (t.seqSt, t.chSt, t.rval)) = some (.idle, .idle, .int 0) := by decide +kernel

/-- V-RO26: SRESET drops the snapshot before its first bus event. -/
theorem test_sreset : shows (exec .sreset { running 0x60000000 0 .undef with snapV := true, snapR := .val 3 })
    (fun t => (t.snapV, t.chSt, t.chAddr)) = some (false, .rPoll1, .val 0x04) := by decide

/-- E8: the settle goes on at 1.5 s and ends at 2.0 s. -/
theorem test_sreset_settle :
    shows (step (timed 0 [0x3FF8000000000000] { running 0x60000000 0 .undef with seqSt := .settle, seqT0 := .val 0 }))
        (fun t => (t.seqSt, t.trace)) = some (.settle, []) ∧
      shows (step (timed 0 [0x4000000000000000] { running 0x60000000 0 .undef with seqSt := .settle, seqT0 := .val 0 }))
        (fun t => (t.seqSt, t.rstat)) = some (.idle, 0x00) := by decide +kernel

/-- V-CH5, V-CH6: the write polls look at bit 1 only and the read-ready poll at bit 0 only. -/
theorem test_busRdStatus :
    shows (exec (.busRdStatus 0x02) (channelAt 0x10010500 .undef .wPoll1 0x05 1 0 0x11)) (fun t => (t.chSt, t.chPolls)) =
        some (.wPoll1, 1) ∧
      shows (exec (.busRdStatus 0x01) (channelAt 0x10010500 .undef .wPoll2 0x05 1 0 0x11)) (fun t => t.chSt) =
        some .wData ∧
      shows (exec (.busRdStatus 0x00) (channelAt 0x08010700 .undef .rPoll2 0x07 1 0 0)) (fun t => t.chSt) =
        some .rPoll2 ∧
      shows (exec (.busRdStatus 0x03) (channelAt 0x08010700 .undef .rPoll2 0x07 1 0 0)) (fun t => t.chSt) =
        some .rRead := by decide

/-- V-CH8: with a bound of 2 the second failed read raises DeviceUnresponsive. -/
theorem test_busRdStatus_bound :
    shows (exec (.busRdStatus 0x02)
        (bounded 2 { channelAt 0x10010500 .undef .wPoll1 0x05 1 0 0x11 with chPolls := 1 }))
        (fun t => (t.rstat, t.flog, t.finfo, t.seqSt)) =
      some (0x01, 0x0002, .val (.deviceUnresponsive .wPoll1 0x05 0 0x02), .idle) := by decide

/-- V-CH4: both selections of a two-byte write are 0x90. -/
theorem test_busSelW : shows (exec (.busSelW 0x10) (channelAt 0x10021000 .undef .wSel 0x10 2 1 0xABCD))
    (fun t => (t.trace, t.chSt)) = some ([⟨.write, .writePtr, 0x90⟩], .wPoll2) := by decide

/-- V-CH3: the third selection of a read at 0x00 is 0x02. -/
theorem test_busSelR : shows (exec (.busSelR 0x02) (channelAt 0x08040000 .undef .rSel 0x00 4 2 0x403E))
    (fun t => (t.trace, t.chSt)) = some ([⟨.write, .writePtr, 0x02⟩], .rPoll2) := by decide

/-- V-CH4: the first data byte is 0xAB, and the second byte's poll follows. -/
theorem test_busWrData : shows (exec (.busWrData 0xAB) (channelAt 0x10021000 .undef .wData 0x10 2 0 0xABCD))
    (fun t => (t.trace, t.chSt, t.chI)) = some ([⟨.write, .writePtr, 0xAB⟩], .wPoll1, .val 1) := by decide

/-- V-RO3: the last data byte of WRREG ends it, with RDATA 0xFB. -/
theorem test_busWrData_last : shows (exec (.busWrData 0xFB) (channelAt 0x22000000 .undef .wData 0x05 1 0 0xFB))
    (fun t => (t.rdata, t.seqSt, t.chSt)) = some (.val 0xFB, .idle, .idle) := by decide

/-- E4: the last byte of RDFLD VERSION.fw_version gives Ver(15, 63, 62). -/
theorem test_busRdData_rdfld : shows (exec (.busRdData 0xFF) (channelAt 0x48400000 .undef .rRead 0x00 4 3 0x0000FE))
    (fun t => (t.rdata, t.rval, t.snapV, t.snapR)) = some (.val 0xFEFF, .ver 15 63 62, true, .val 0) := by decide

/-- V-RO10: WRFLD CONTROL.gain_x, F64(3.7) merges 0x82 to 0x92. -/
theorem test_busRdData_wrfld :
    shows (exec (.busRdData 0x82) (channelAt 0x51400000 (.f64 0x400D99999999999A) .rRead 0x04 1 0 0))
      (fun t => (t.chSt, t.chAddr, t.chOut)) = some (.wPoll1, .val 0x04, .val 0x92) := by decide +kernel

/-- The host's placing: the very next step runs the placed command, and issues the placed bus event. -/
theorem test_withFetchWord :
    shows (step (State.reset.withFetchWord 32 0x27000000)) (fun t => t.finfo) = some (.val (.noSuchRegister 7)) ∧
      shows (step (State.reset.withFetchWord 16 0x002)) (fun t => t.trace) = some [⟨.read, .status, 0x02⟩] ∧
      shows (step (State.reset.withFetchWord 16 0x585)) (fun t => t.trace) = some [⟨.write, .writePtr, 0x85⟩] ∧
      shows (step (State.reset.withFetchWord 16 0x514)) (fun t => t.trace) = some [⟨.write, .writePtr, 0x14⟩] ∧
      shows (step (State.reset.withFetchWord 16 0x2FE)) (fun t => t.rdata) = some (.val 0xFE) := by decide

/-! ### Adapters and the configuration check -/

/-- Section 4.1, GAIN: 20 is nearest 16, the exact tie 2.35 goes to the smaller key, out of range clamps. -/
theorem test_lookup_gain :
    lutEncode Config.gainTable (.f64 0x4034000000000000) = some 2 ∧
      lutEncode Config.gainTable (.f64 0x4002CCCCCCCCCCCD) = some 0 ∧
      lutEncode Config.gainTable (.int 1000) = some 3 ∧ lutEncode Config.gainTable (.int (-1)) = some 0 := by
  decide +kernel

/-- Section 4.3: 1.1 rounds, 2^24 + 1 ties to even, the overflow threshold has no encoding, the value below it has. -/
theorem test_float32 :
    f32Encode (.f64 0x3FF199999999999A) = some 0x3F8CCCCD ∧ f32Encode (.int 16777217) = some 0x4B800000 ∧
      f32Encode (.f64 0x47EFFFFFF0000000) = none ∧ f32Encode (.f64 0x47EFFFFFEFFFFFFF) = some 0x7F7FFFFF ∧
      f32Encode (.f64 0x8000000000000000) = some 0x80000000 := by
  decide +kernel

/-- 60_exceptions.md R254: an integer that overflows binary64 overflows binary32 too; an infinity operand does not fault. -/
theorem test_float32_integer_overflow :
    f32Encode (.int (2 ^ 1100)) = none ∧ f32Encode (.int (-(2 ^ 1100))) = none ∧ f32Encode (.int (2 ^ 128)) = none ∧
      f32Encode (.f64 0xFFF0000000000000) = some 0xFF800000 := by
  decide +kernel

/-- Section 4.4: the order of the minor's two parts. -/
theorem test_firmware : fwDecode 0x4001 = .ver 0 5 0 ∧ fwDecode 0x1234 = .ver 3 16 18 ∧
    versionString 15 63 62 = "15.63.62" := by decide

/-- Section 7, 0x03: overlap, too wide, not contiguous; with the defaults no failure. -/
theorem test_configCheck :
    configCheck {} = none ∧ configCheck { gainX := 0x18 } = some (1, 3) ∧ configCheck { ms := 0x1FF } = some (2, 0) ∧
      configCheck { indicatorCurrentLimitMa := 0x05 } = some (4, 2) := by decide

/-- 70_reset_and_hazards.md R281: of two failures the first in register order, and in a register in field order. -/
theorem test_configCheck_first :
    configCheck { ms := 0x1FF, gainX := 0x18 } = some (1, 3) ∧ configCheck { interrupt := 0, dataReady := 0 } = some (1, 1) :=
  by decide

/-- 30_encoding.md R101. -/
theorem test_assembly : assembly (.wrfld 1 2) 0 (.int 20) = some "WRFLD 1.2, Int(20)" := by decide

/-! ### For each statement with hypotheses, values that meet them together -/

theorem witness_DecodeThenEncode : decode true (.bus 0x5FF) = .ok (.busWrData 0xFF) := by decide

theorem witness_CommandTableDecides :
    (0x08000000, 0xFFE000FF) ∈ commandRows ∧ (0x08186800 : CmdWord) &&& 0xFFE000FF = 0x08000000 := by decide

theorem witness_StepRunsAcceptedCommand :
    accepts (offered [⟨0x08186800, 0, .undef⟩, ⟨0, 0, .undef⟩]) ⟨0x08186800, 0, .undef⟩ [⟨0, 0, .undef⟩] (.vread 24 0x68) :=
  ⟨by decide, by decide, by decide, by decide, by decide⟩

theorem witness_StepIssuesChannelEvent :
    resetAsserted (channelAt 0x10021000 .undef .wData 0x10 2 1 0xABCD) = false ∧
      (channelAt 0x10021000 .undef .wData 0x10 2 1 0xABCD).seqSt = .run ∧
      (isPoll (hearing [0x02] (channelAt 0x08010700 .undef .rPoll2 0x07 1 0 0)).chSt = true ∧
        (hearing [0x02] (channelAt 0x08010700 .undef .rPoll2 0x07 1 0 0)).env.sensorIn = [0x02]) ∧
      ((hearing [0x2B] (channelAt 0x08010700 .undef .rRead 0x07 1 0 0)).chSt = .rRead ∧
        (hearing [0x2B] (channelAt 0x08010700 .undef .rRead 0x07 1 0 0)).env.sensorIn = [0x2B]) ∧
      (isPoll (channelAt 0x10021000 .undef .wPoll1 0x10 2 1 0xABCD).chSt = true ∧
        (channelAt 0x10021000 .undef .wPoll1 0x10 2 1 0xABCD).env.sensorIn = []) ∧
      ((channelAt 0x08010700 .undef .rRead 0x07 1 0 0).chSt = .rRead ∧
        (channelAt 0x08010700 .undef .rRead 0x07 1 0 0).env.sensorIn = []) ∧
      (channelAt 0x10021000 .undef .wSel 0x10 2 1 0xABCD).chSt = .wSel ∧
      (channelAt 0x08186800 .undef .rSel 0x68 24 23 0).chI = .val 23 ∧
      (channelAt 0x10021000 .undef .wData 0x10 2 1 0xABCD).chOut = .val 0xABCD := by decide

theorem witness_StatusReadEndsPoll :
    (channelAt 0x10010500 .undef .wPoll1 0x05 1 0 0x11).chSt = .wPoll1 ∧ (0xFD : Byte).getLsbD 1 = false ∧
      (channelAt 0x10010500 .undef .wPoll2 0x05 1 0 0x11).chSt = .wPoll2 ∧
      (channelAt 0x08010700 .undef .rPoll1 0x07 1 0 0).chSt = .rPoll1 ∧
      (channelAt 0x08010700 .undef .rPoll2 0x07 1 0 0).chSt = .rPoll2 ∧ (0x03 : Byte).getLsbD 0 = true := by decide

theorem witness_StatusReadRepeatsPoll :
    ((channelAt 0x10010500 .undef .wPoll1 0x05 1 0 0x11).chSt = .wPoll1 ∧ (0x02 : Byte).getLsbD 1 = true ∧
        (channelAt 0x10010500 .undef .wPoll1 0x05 1 0 0x11).par.pollLimit = .unbounded) ∧
      ((bounded 2 (channelAt 0x08010700 .undef .rPoll2 0x07 1 0 0)).chSt = .rPoll2 ∧ (0xFE : Byte).getLsbD 0 = false ∧
        (bounded 2 (channelAt 0x08010700 .undef .rPoll2 0x07 1 0 0)).par.pollLimit = .bound 2 ∧
        (bounded 2 (channelAt 0x08010700 .undef .rPoll2 0x07 1 0 0)).chPolls + 1 < 2) := by decide

theorem witness_StatusReadRaisesDeviceUnresponsive :
    (bounded 1 (channelAt 0x10010500 .undef .wPoll2 0x05 1 0 0x11)).chSt = .wPoll2 ∧ (0x02 : Byte).getLsbD 1 = true ∧
      (bounded 1 (channelAt 0x10010500 .undef .wPoll2 0x05 1 0 0x11)).par.pollLimit = .bound 1 ∧
      1 ≤ (bounded 1 (channelAt 0x10010500 .undef .wPoll2 0x05 1 0 0x11)).chPolls + 1 ∧
      (bounded 1 (channelAt 0x10010500 .undef .wPoll2 0x05 1 0 0x11)).chAddr = .val 0x05 ∧
      (bounded 1 (channelAt 0x10010500 .undef .wPoll2 0x05 1 0 0x11)).chI = .val 0 := by decide

theorem witness_SelectionEvents :
    (channelAt 0x1001FF00 .undef .wSel 0xFF 1 0 0).chSt = .wSel ∧
      (channelAt 0x1001FF00 .undef .wSel 0xFF 1 0 0).chAddr = .val 0xFF ∧
      (channelAt 0x08186800 .undef .rSel 0x68 24 23 0).chSt = .rSel ∧
      (channelAt 0x08186800 .undef .rSel 0x68 24 23 0).chAddr = .val 0x68 ∧
      (channelAt 0x08186800 .undef .rSel 0x68 24 23 0).chI = .val 23 ∧ (0x68 : Byte).toNat + (23 : BitVec 5).toNat < 0x80 := by
  decide

theorem witness_DataEventsGoOn :
    (channelAt 0x10186800 .undef .wData 0x68 24 22 7).chN = .val 24 ∧
      (channelAt 0x10186800 .undef .wData 0x68 24 22 7).chI = .val 22 ∧ (22 : BitVec 5).toNat + 1 < (24 : BitVec 5).toNat ∧
      (channelAt 0x10186800 .undef .wData 0x68 24 22 7).chSt = .wData ∧
      (channelAt 0x10186800 .undef .wData 0x68 24 22 7).chOut = .val 7 ∧
      (channelAt 0x08186800 .undef .rRead 0x68 24 22 7).chSt = .rRead ∧
      (channelAt 0x08186800 .undef .rRead 0x68 24 22 7).chAcc = .val 7 := by decide

theorem witness_LastDataWriteEndsCommand :
    atLastWriteByte (channelAt 0x10021000 .undef .wData 0x10 2 1 0xABCD) ⟨0x10021000, 0, .undef⟩ (.vwrite 2 0x10) 0xABCD
        0xCD ∧
      atLastWriteByte (channelAt 0x22000000 .undef .wData 0x05 1 0 0xFB) ⟨0x22000000, 0, .undef⟩ (.wrreg 2) 0xFB 0xFB ∧
      atLastWriteByte (channelAt 0x51400000 .undef .wData 0x04 1 0 0x92) ⟨0x51400000, 0, .undef⟩ (.wrfld 1 2) 0x92 0x92 ∧
      atLastWriteByte (timed noReadingYet [0] (channelAt 0x60000000 .undef .wData 0x04 1 0 0x90))
        ⟨0x60000000, 0, .undef⟩ .sreset 0x90 0x90 ∧
      f64Finite 0 = true ∧ extLe (f64Ext noReadingYet) (f64Ext 0) = true :=
  ⟨⟨by decide, by decide, ⟨2, 1, by decide, by decide, by decide, by decide⟩, by decide, by decide⟩,
    ⟨by decide, by decide, ⟨1, 0, by decide, by decide, by decide, by decide⟩, by decide, by decide⟩,
    ⟨by decide, by decide, ⟨1, 0, by decide, by decide, by decide, by decide⟩, by decide, by decide⟩,
    ⟨by decide, by decide, ⟨1, 0, by decide, by decide, by decide, by decide⟩, by decide, by decide⟩, by decide, by decide⟩

theorem witness_LastDataReadEndsCommand :
    atLastReadByte (channelAt 0x08040000 .undef .rRead 0x00 4 3 0x403EFE) ⟨0x08040000, 0, .undef⟩ (.vread 4 0) 0x403EFE ∧
      atLastReadByte (channelAt 0x18000000 .undef .rRead 0x00 4 3 0x403EFE) ⟨0x18000000, 0, .undef⟩ (.rdreg 0) 0x403EFE ∧
      atLastReadByte (channelAt 0x48400000 .undef .rRead 0x00 4 3 0x0000FE) ⟨0x48400000, 0, .undef⟩ (.rdfld 0 2) 0x0000FE ∧
      lookupField State.reset.par.masks 0 2 = .ok (Config.versionReg {}, ⟨0x0000FFFF, .fwver⟩) ∧
      fieldDecode ⟨0x0000FFFF, .fwver⟩ ((((0x0000FE : Raw) <<< 8) ||| (0xFF : Byte).setWidth 192).toNat % 2 ^ 32) =
        some (.ver 15 63 62) ∧
      atLastReadByte (wideIllum (channelAt 0x4C000000 .undef .rRead 0x07 1 0 0)) ⟨0x4C000000, 0, .undef⟩ (.rdfld 4 0) 0 ∧
      lookupField (wideIllum (channelAt 0x4C000000 .undef .rRead 0x07 1 0 0)).par.masks 4 0 =
        .ok (Config.ledControlReg wideIllumMasks, ⟨0xF0, .lut Config.illumTable⟩) ∧
      fieldDecode ⟨0xF0, .lut Config.illumTable⟩ ((((0 : Raw) <<< 8) ||| (0x40 : Byte).setWidth 192).toNat % 2 ^ 8) = none :=
  ⟨⟨by decide, by decide, ⟨4, 3, by decide, by decide, by decide⟩, by decide, by decide⟩,
    ⟨by decide, by decide, ⟨4, 3, by decide, by decide, by decide⟩, by decide, by decide⟩,
    ⟨by decide, by decide, ⟨4, 3, by decide, by decide, by decide⟩, by decide, by decide⟩, by decide, by decide,
    ⟨by decide, by decide, ⟨1, 0, by decide, by decide, by decide⟩, by decide, by decide⟩, by decide, by decide⟩

theorem witness_LastDataReadStartsMergedWrite :
    atLastReadByte (channelAt 0x51400000 (.int 64) .rRead 0x04 1 0 0) ⟨0x51400000, 0, .int 64⟩ (.wrfld 1 2) 0 ∧
      lookupField State.reset.par.masks 1 2 = .ok (Config.controlReg {}, ⟨0x30, .lut Config.gainTable⟩) ∧
      fieldEncode ⟨0x30, .lut Config.gainTable⟩ 8 (.int 64) = some 0x30 ∧
      atLastReadByte (channelAt 0x60000000 .undef .rRead 0x04 1 0 0) ⟨0x60000000, 0, .undef⟩ .sreset 0 ∧
      fieldEncode (resetField {}) 8 (.int 1) = some 0x80 :=
  ⟨⟨by decide, by decide, ⟨1, 0, by decide, by decide, by decide⟩, by decide, by decide⟩, by decide, by decide +kernel,
    ⟨by decide, by decide, ⟨1, 0, by decide, by decide, by decide⟩, by decide, by decide⟩, by decide⟩

theorem witness_WaitrdyPollReadsControl :
    atLastReadByte (channelAt 0x58000000 (.int 1) .rRead 0x04 1 0 0) ⟨0x58000000, 0, .int 1⟩ .waitrdy 0 ∧
      fieldDecode (dataReadyField {}) (((0 : Raw) <<< 8) ||| (0x02 : Byte).setWidth 192).toNat = some (.int 1) ∧
      fieldDecode (dataReadyField {}) (((0 : Raw) <<< 8) ||| (0xFD : Byte).setWidth 192).toNat ≠ some (.int 1) :=
  ⟨⟨by decide, by decide, ⟨1, 0, by decide, by decide, by decide⟩, by decide, by decide⟩, by decide, by decide⟩

theorem witness_ChannelCommandsStart :
    (1 ≤ (24 : BitVec 5).toNat ∧ (24 : BitVec 5).toNat ≤ 24 ∧ (0x68 : Byte).toNat + (24 : BitVec 5).toNat ≤ 0x80) ∧
      (1 ≤ (1 : BitVec 5).toNat ∧ (1 : BitVec 5).toNat ≤ 24 ∧ (0x7F : Byte).toNat + (1 : BitVec 5).toNat ≤ 0x80) ∧
      (running 0x10017F00 5 .undef).seqCmd = .val ⟨0x10017F00, 5, .undef⟩ := by decide

theorem witness_AddressRangeRefusesAccess :
    ¬(1 ≤ (0 : BitVec 5).toNat ∧ (0 : BitVec 5).toNat ≤ 24 ∧ (0x00 : Byte).toNat + (0 : BitVec 5).toNat ≤ 0x80) ∧
      ¬(1 ≤ (25 : BitVec 5).toNat ∧ (25 : BitVec 5).toNat ≤ 24 ∧ (0x00 : Byte).toNat + (25 : BitVec 5).toNat ≤ 0x80) ∧
      ¬(1 ≤ (17 : BitVec 5).toNat ∧ (17 : BitVec 5).toNat ≤ 24 ∧ (0x70 : Byte).toNat + (17 : BitVec 5).toNat ≤ 0x80) ∧
      (1 ≤ (16 : BitVec 5).toNat ∧ (16 : BitVec 5).toNat ≤ 24 ∧ (0x70 : Byte).toNat + (16 : BitVec 5).toNat ≤ 0x80) ∧
      (running 0x10107000 5 .undef).seqCmd = .val ⟨0x10107000, 5, .undef⟩ ∧ Config.calibratedDataReg {} ∈ Config.map {} := by
  decide

theorem witness_RegisterReadsStart :
    lookupRegister State.reset.par.masks 6 = .ok (Config.calibratedDataReg {}) ∧
      lookupField State.reset.par.masks 6 5 = .ok (Config.calibratedDataReg {}, ⟨0xFFFFFFFF, .f32⟩) := by decide

theorem witness_WrregStartsMaskedWrite :
    lookupRegister (running 0x22000000 0x1FB .undef).par.masks 2 = .ok (Config.integrationTimeReg {}) ∧
      (Config.integrationTimeReg {}).access = .rw ∧
      (running 0x22000000 0x1FB .undef).seqCmd = .val ⟨0x22000000, 0x1FB, .undef⟩ := by decide

theorem witness_WrfldStartsFreshRead :
    lookupField (running 0x54000000 0 (.int 20)).par.masks 4 0 =
        .ok (Config.ledControlReg {}, ⟨0x30, .lut Config.illumTable⟩) ∧
      (Config.ledControlReg {}).access = .rw ∧ (running 0x54000000 0 (.int 20)).seqCmd = .val ⟨0x54000000, 0, .int 20⟩ ∧
      fieldEncode ⟨0x30, .lut Config.illumTable⟩ 8 (.int 20) = some 0x10 := by decide +kernel

theorem witness_FdecDecodesSnapshot :
    lookupField (snapped 1 0x22).par.masks 1 4 = .ok (Config.controlReg {}, ⟨0x02, .ident⟩) ∧
      (snapped 1 0x22).snapV = true ∧ (snapped 1 0x22).snapR = .val 1 ∧ (snapped 1 0x22).snapD = .val 0x22 ∧
      fieldDecode ⟨0x02, .ident⟩ ((0x22 : Raw).toNat % 2 ^ 8) = some (.int 1) := by decide

/-- The clause of a code with no key, under masks that pass the check. -/
theorem witness_FdecDecodesSnapshot_no_key :
    configCheck wideIllumMasks = none ∧
      lookupField (wideIllum (snapped 4 0xF0)).par.masks 4 0 =
        .ok (Config.ledControlReg wideIllumMasks, ⟨0xF0, .lut Config.illumTable⟩) ∧
      (wideIllum (snapped 4 0xF0)).snapV = true ∧ (wideIllum (snapped 4 0xF0)).snapR = .val 4 ∧
      (wideIllum (snapped 4 0xF0)).snapD = .val 0xF0 ∧
      fieldDecode ⟨0xF0, .lut Config.illumTable⟩ ((0xF0 : Raw).toNat % 2 ^ 8) = none := by decide

theorem witness_FdecWithoutSnapshotFaults :
    lookupField State.reset.par.masks 1 4 = .ok (Config.controlReg {}, ⟨0x02, .ident⟩) ∧ State.reset.snapV = false ∧
      (snapped 1 0x22).snapR ≠ .val 2 := by decide

theorem witness_CodecCommandsCompute :
    lookupField (running 0x45600000 9 (.int 20)).par.masks 2 0 =
        .ok (Config.integrationTimeReg {}, ⟨0xFF, .scale Config.scaleK⟩) ∧
      (running 0x42000000 9 (.int 20)).seqCmd = .val ⟨0x42000000, 9, .int 20⟩ ∧
      (fieldDecode ⟨0xFF, .scale Config.scaleK⟩ ((9 : Raw).toNat % 2 ^ 8)).isSome = true ∧
      fieldEncode ⟨0xFF, .scale Config.scaleK⟩ 8 (.int 20) = some 56 := by decide +kernel

/-- The clause of a code with no key. -/
theorem witness_CodecCommandsCompute_no_key :
    lookupField (wideIllum (running 0x34000000 0x40 .undef)).par.masks 4 0 =
        .ok (Config.ledControlReg wideIllumMasks, ⟨0xF0, .lut Config.illumTable⟩) ∧
      (wideIllum (running 0x34000000 0x40 .undef)).seqCmd = .val ⟨0x34000000, 0x40, .undef⟩ ∧
      fieldDecode ⟨0xF0, .lut Config.illumTable⟩ ((0x40 : Raw).toNat % 2 ^ 8) = none := by decide

theorem witness_WaitrdyStartsFirstPoll :
    (running 0x58000000 0 (.int 0)).seqCmd = .val ⟨0x58000000, 0, .int 0⟩ ∧
      (running 0x58000000 0 (.f64 0x7FF0000000000000)).seqCmd = .val ⟨0x58000000, 0, .f64 0x7FF0000000000000⟩ ∧
      f64IsNaN 0x7FF0000000000000 = false ∧ (timed 0 [0] (running 0x58000000 0 (.int 0))).env.timeIn = [0] ∧
      f64Finite 0 = true ∧ extLe (f64Ext (timed 0 [0] (running 0x58000000 0 (.int 0))).env.lastNow) (f64Ext 0) = true := by
  decide

theorem witness_TimeTestsEndWaits :
    (resetAsserted (timed 0 [0] { running 0x58000000 0 (.int 0) with seqSt := .wait, seqT0 := .val 0 }) = false ∧
        (timed 0 [0] { running 0x58000000 0 (.int 0) with seqSt := .wait, seqT0 := .val 0 }).env.timeIn = [0] ∧
        f64Finite 0 = true ∧ extLe (f64Ext 0) (f64Ext 0) = true ∧ numericOperand (.int 0) = some (.fin 0)) ∧
      (timed 0 [0x4000000000000000] { running 0x60000000 0 .undef with seqSt := .settle, seqT0 := .val 0 }).seqSt =
          .settle ∧
        f64Finite 0x4000000000000000 = true ∧ extLe (f64Ext 0) (f64Ext 0x4000000000000000) = true := by decide +kernel

theorem witness_MissingRegisterOrFieldFaults :
    7 ≤ (7 : BitVec 3).toNat ∧ Config.fieldCounts[(6 : BitVec 3).toNat]? = some 6 ∧ 6 ≤ (6 : BitVec 3).toNat ∧
      Instr.fdec 6 6 ∈ [Instr.fdec 6 6, .fdecr 6 6, .fenc 6 6, .fins 6 6, .rdfld 6 6, .wrfld 6 6] := by decide

theorem witness_ReadOnlyRegisterRefusesWrites :
    (Config.versionReg {}).access = .ro ∧ lookupRegister State.reset.par.masks 0 = .ok (Config.versionReg {}) ∧
      lookupField State.reset.par.masks 0 2 = .ok (Config.versionReg {}, ⟨0x0000FFFF, .fwver⟩) := by decide

theorem witness_UnencodableValueFaults :
    (running 0x51000000 0 (.ver 1 2 3)).seqCmd = .val ⟨0x51000000, 0, .ver 1 2 3⟩ ∧
      lookupField (running 0x51000000 0 (.ver 1 2 3)).par.masks 1 0 = .ok (Config.controlReg {}, ⟨0x80, .ident⟩) ∧
      fieldEncode ⟨0x80, .ident⟩ 8 (.ver 1 2 3) = none ∧ (Config.controlReg {}).access = .rw := by decide

/-- The clause of a timeout that is not a number. -/
theorem witness_UnencodableValueFaults_timeout :
    (∀ n, (Sem.f64 0x7FF8000000000000) ≠ .int n) ∧
      ∀ x, (Sem.f64 0x7FF8000000000000) = .f64 x → f64IsNaN x = true :=
  ⟨nofun, fun x h => by cases h; decide⟩

theorem witness_AcceptanceFaults :
    (resetAsserted { offered [⟨0, 0, .undef⟩] with par := { masks := { gainX := 0x18 } }, cfgOk := false } = false ∧
        { offered [⟨0, 0, .undef⟩] with par := { masks := { gainX := 0x18 } }, cfgOk := false }.seqSt = .idle ∧
        configCheck { gainX := 0x18 } = some (1, 3)) ∧
      (offered [⟨0x68000000, 0, .undef⟩]).env.port = [⟨0x68000000, 0, .undef⟩] ∧
      (offered [⟨0x68000000, 0, .undef⟩]).cfgOk = true := by decide

/-- A reserved OP, and a nonzero bit where NOP's row has a zero. -/
theorem witness_AcceptanceFaults_illegal :
    (∀ row ∈ commandRows, (0x68000000 : CmdWord) &&& row.2 ≠ row.1) ∧
      ∀ row ∈ commandRows, (0x00000001 : CmdWord) &&& row.2 ≠ row.1 := by
  constructor <;> simp [commandRows]

theorem witness_ResetInputRestoresResetValues :
    { running 0 0 .undef with env := { Env.quiet with resetPin := [true, false] } }.env.resetPin = [true, false] := by
  decide

theorem witness_DefaultMasksPassCheck :
    State.reset.par.masks = {} ∧ (vrmReset { State.reset with par := { masks := { gainX := 0x18 } } }).cfgOk = false := by
  decide

theorem witness_FieldWriteKeepsOtherFields :
    configCheck {} = none ∧ Config.controlReg {} ∈ Config.map {} ∧
      (Config.controlReg {}).fields[0]? = some ⟨0x80, .ident⟩ ∧ (Config.controlReg {}).fields[4]? = some ⟨0x02, .ident⟩ ∧
      0 ≠ 4 ∧ 0xFF < 2 ^ (Config.controlReg {}).width ∧ fieldEncode ⟨0x80, .ident⟩ 8 (.int 0) = some 0 := by decide

theorem witness_WrittenFieldReadsBack :
    1 ≤ 2 ∧ 6 + 2 ≤ 8 ∧ (⟨0xC0, .ident⟩ : Field).mask = (2 ^ 2 - 1) * 2 ^ 6 := by decide

theorem witness_LookupDecodeIsTableLookup :
    (Config.gainTable.map Prod.snd).Nodup ∧ (0x4050000000000000, 3) ∈ Config.gainTable ∧
      (∀ e ∈ Config.gainTable, e.2 ≠ 4) ∧ Config.gainTable ∈ [Config.gainTable, Config.illumTable, Config.indicTable] ∧
      3 < 4 := by decide

theorem witness_LookupSnapsToNearestKey :
    Config.indicTable ≠ [] ∧ (∀ e ∈ Config.indicTable, f64Finite e.1 = true) ∧
      numericOperand (.int 3) = some (.fin (3 * 2 ^ 1074)) ∧ numericOperand (.f64 0xFFF0000000000000) = some .negInf ∧
      numericOperand (.f64 0x7FF0000000000000) = some .posInf ∧ (∀ n, Sem.undef ≠ .int n) ∧
      ∀ x, Sem.undef = .f64 x → f64IsNaN x = true :=
  ⟨by decide, by decide, by decide +kernel, by decide, by decide, nofun, nofun⟩

theorem witness_ScaleRoundTripSettles :
    scaleEncode Config.scaleK (.int (-1)) = some (-2) ∧ ((254 : Nat) : Int) = -2 % 256 := by decide +kernel

theorem witness_RoundingIsNearestTiesToEven :
    2 ≤ 24 ∧ 0 < 2 ∧ roundPattern 24 f32InfPattern 33554435 2 < f32InfPattern ∧
      16777216 ≠ roundPattern 24 f32InfPattern 33554435 2 := by decide

/-- The overflow clause at its threshold, and the operands of the operations. -/
theorem witness_RoundingIsNearestTiesToEven_operations :
    f32InfPattern % 2 = 0 ∧
      (patternValue 24 (f32InfPattern - 1) + patternValue 24 f32InfPattern) * 1 = 2 * ((2 ^ 128 - 2 ^ 103) * 2 ^ 149) ∧
      roundPattern 24 f32InfPattern ((2 ^ 128 - 2 ^ 103) * 2 ^ 149) 1 = f32InfPattern ∧
      roundPattern 24 f32InfPattern ((2 ^ 128 - 2 ^ 103) * 2 ^ 149 - 1) 1 = f32InfPattern - 1 ∧
      f64Finite 0x4056800000000000 = true ∧ f64Finite Config.scaleK = true ∧ f64Mag Config.scaleK ≠ 0 := by decide +kernel

theorem witness_Float32AdapterPatterns :
    f64IsNaN 0x7FF8000000000001 = true ∧ f64Ext 0x7FF0000000000000 = .posInf ∧ f64Ext 0xFFF0000000000000 = .negInf ∧
      f64Finite 0x47EFFFFFF0000000 = true ∧ f64Mag 0x47EFFFFFF0000000 = (2 ^ 128 - 2 ^ 103) * 2 ^ 1074 ∧
      f64Finite 0xC7EFFFFFEFFFFFFF = true ∧ f64Mag 0xC7EFFFFFEFFFFFFF < (2 ^ 128 - 2 ^ 103) * 2 ^ 1074 ∧
      f64Finite (f64OfInt 16777217) = true ∧ f64Finite (f64OfInt (2 ^ 1100)) = false := by decide +kernel

theorem witness_FirmwareEncodeAlwaysFaults :
    (running 0x38400000 0 (.ver 15 63 62)).seqCmd = .val ⟨0x38400000, 0, .ver 15 63 62⟩ := by decide

/-- A step that issues an event. -/
theorem witness_TraceGrowsByLegalEvents :
    resetAsserted (channelAt 0x10010500 .undef .wSel 0x05 1 0 0x11) = false ∧
      ∃ t, step (channelAt 0x10010500 .undef .wSel 0x05 1 0 0x11) = .next t ∧ t.trace = [⟨.write, .writePtr, 0x85⟩] :=
  ⟨by decide, _, rfl, by decide⟩

/-- A step that completes a command without fault, one that completes one with a fault, one that completes none. -/
theorem witness_CompletionWritesStatus :
    resetAsserted (offered [⟨0, 0, .undef⟩]) = false ∧
      (∃ t, step (offered [⟨0, 0, .undef⟩]) = .next t ∧ t.cmdcnt = 1 ∧ t.rstat = 0) ∧
      (∃ t, step (offered [⟨0x29000000, 0, .undef⟩]) = .next t ∧ t.cmdcnt = 1 ∧ t.rstat = 0x09) ∧
      ∃ t, step (offered [⟨0x60000000, 0, .undef⟩]) = .next t ∧ t.cmdcnt = 0 :=
  ⟨by decide, ⟨_, rfl, by decide, by decide⟩, ⟨_, rfl, by decide, by decide⟩, ⟨_, rfl, by decide⟩⟩

/-- P4, its first fault after an earlier one, and a reset. -/
theorem witness_FaultLogIsSticky :
    (∃ t, step { offered [⟨0x29800000, 0, .undef⟩] with flog := 0x0080 } = .next t ∧ t.cmdcnt = 1 ∧ t.rstat ≠ 0 ∧
        t.flog = 0x0280) ∧
      (0x0080 : BitVec 16).getLsbD 7 = true ∧ (0x0080 : BitVec 16) &&& 0xFC01 = 0 ∧
      resetAsserted { State.reset with env := { Env.quiet with resetPin := [true] }, flog := 0x0080 } = true ∧
      ∃ t, step { State.reset with env := { Env.quiet with resetPin := [true] }, flog := 0x0080 } = .next t ∧ t.flog = 0 :=
  ⟨⟨_, rfl, by decide, by decide, by decide⟩, by decide, by decide, by decide, ⟨_, rfl, by decide⟩⟩

/-- A step that leaves the snapshot, one that takes it, one that drops it. -/
theorem witness_SnapshotLifetime :
    (∃ t, step (snapped 1 0x22) = .next t ∧ t.snapV = true ∧ t.snapD = .val 0x22) ∧
      (∃ t, step (hearing [0x2B] (channelAt 0x1C000000 .undef .rRead 0x07 1 0 0)) = .next t ∧ t.snapR = .val 4 ∧
        t.snapD = .val 0x2B) ∧
      ∃ t, step { offered [⟨0x21000000, 0, .undef⟩] with snapV := true, snapR := .val 1, snapD := .val 0x22 } = .next t ∧
        t.snapV = false :=
  ⟨⟨_, rfl, by decide, by decide⟩, ⟨_, rfl, by decide, by decide⟩, ⟨_, rfl, by decide⟩⟩

/-- The wait of V-RO22, a step that reads the time. -/
theorem witness_TimeAndParametersNeverGoBack :
    f64IsNaN (timed 0 [0] { running 0x60000000 0 .undef with seqSt := .settle, seqT0 := .val 0 }).env.lastNow = false ∧
      shows (step (timed 0 [0] { running 0x60000000 0 .undef with seqSt := .settle, seqT0 := .val 0 }))
        (fun t => t.env.lastNow) = some 0 := by decide +kernel

/-- The data byte of a write, with its selection pending in TRACE. -/
theorem witness_HandshakesNeverInterleave :
    ∃ s : State, s.par.pollLimit = .unbounded ∧ (s.seqSt ≠ .run → s.chSt = .idle) ∧
      (writePending s.trace = true ↔ s.chSt = .wPoll2 ∨ s.chSt = .wData) ∧ ∃ t, step s = .next t ∧ t.chSt = .idle :=
  ⟨{ channelAt 0x10010500 .undef .wData 0x05 1 0 0x11 with trace := [⟨.write, .writePtr, 0x85⟩] }, by decide, by decide,
    by decide, _, rfl, by decide⟩

/-- A consistent state in the middle of a WRREG. -/
theorem witness_MachineNeverStops : (channelAt 0x22000000 .undef .wPoll2 0x05 1 0 0xFB).Consistent where
  cfg := by decide
  busy := fun _ => by decide
  rstat := by decide
  flog := by decide
  sequencer :=
    ⟨⟨0x22000000, 0, .undef⟩, 0x05, 1, 0, by decide, by decide, by decide, by decide, by decide, by decide, by decide,
      .inr ⟨by decide, ⟨Config.integrationTimeReg {}, by decide, by decide, by decide, by decide⟩, 0xFB, by decide,
        by decide⟩⟩
  polls := ⟨nofun, nofun⟩
  snapshot := nofun

theorem witness_StuckPollRunsOn :
    (hearing [0x02, 0x03, 0x00] (channelAt 0x10010500 .undef .wPoll1 0x05 1 0 0x11)).env.resetPin = [] ∧
      (hearing [0x02, 0x03, 0x00] (channelAt 0x10010500 .undef .wPoll1 0x05 1 0 0x11)).seqSt = .run ∧
      (hearing [0x02, 0x03, 0x00] (channelAt 0x10010500 .undef .wPoll1 0x05 1 0 0x11)).par.pollLimit = .unbounded ∧
      (hearing [0x02, 0x03, 0x00] (channelAt 0x10010500 .undef .wPoll1 0x05 1 0 0x11)).env.sensorIn =
        [0x02, 0x03] ++ [0x00] ∧
      ∀ b ∈ ([0x02, 0x03] : List Byte),
        pollSatisfied (hearing [0x02, 0x03, 0x00] (channelAt 0x10010500 .undef .wPoll1 0x05 1 0 0x11)).chSt b = some false := by
  decide

/-- V-CH8. -/
theorem witness_BoundedPollFaultsAtBound :
    (bounded 2 (hearing [0x02, 0x02] (channelAt 0x10010500 .undef .wPoll1 0x05 1 0 0x11))).env.resetPin = [] ∧
      (bounded 2 (hearing [0x02, 0x02] (channelAt 0x10010500 .undef .wPoll1 0x05 1 0 0x11))).seqSt = .run ∧
      (bounded 2 (hearing [0x02, 0x02] (channelAt 0x10010500 .undef .wPoll1 0x05 1 0 0x11))).chPolls = 0 ∧
      (bounded 2 (hearing [0x02, 0x02] (channelAt 0x10010500 .undef .wPoll1 0x05 1 0 0x11))).par.pollLimit =
        .bound (([0x02] : List Byte).length + 1) ∧
      (bounded 2 (hearing [0x02, 0x02] (channelAt 0x10010500 .undef .wPoll1 0x05 1 0 0x11))).env.sensorIn =
        [0x02] ++ 0x02 :: [] ∧
      (∀ x ∈ [0x02] ++ [(0x02 : Byte)],
        pollSatisfied (bounded 2 (hearing [0x02, 0x02] (channelAt 0x10010500 .undef .wPoll1 0x05 1 0 0x11))).chSt x =
          some false) ∧
      (bounded 2 (hearing [0x02, 0x02] (channelAt 0x10010500 .undef .wPoll1 0x05 1 0 0x11))).chAddr = .val 0x05 ∧
      (bounded 2 (hearing [0x02, 0x02] (channelAt 0x10010500 .undef .wPoll1 0x05 1 0 0x11))).chI = .val 0 := by decide

/-- Two bytes read at the top of the admitted addresses; the first byte's polls fail once each, under a bound of 2. -/
theorem witness_MemReadReturnsBytes :
    let plans : List ReadPlan := [⟨[0x02], 0x00, [0x00], 0x01, 0xAB⟩, ⟨[], 0x01, [], 0x01, 0xCD⟩]
    let u := bounded 2 (hearing [0x02, 0x00, 0x00, 0x01, 0xAB, 0x01, 0x01, 0xCD] (running 0x08027E00 0 .undef))
    u.env.resetPin = [] ∧ u.seqSt = .run ∧ plans ≠ [] ∧ plans.length = (2 : BitVec 5).toNat ∧
      (2 : BitVec 5).toNat ≤ 24 ∧ (0x7E : Byte).toNat + (2 : BitVec 5).toNat ≤ 0x80 ∧
      (∀ p ∈ plans, p.honest = true ∧ p.withinBound u.par.pollLimit = true) ∧
      u.env.sensorIn = plans.flatMap ReadPlan.answers ++ [] := by decide

/-- Two bytes written at the top of the admitted addresses. -/
theorem witness_MemWriteSendsBytes :
    let plans : List WritePlan := [⟨[0x02], 0x00, [], 0x00⟩, ⟨[], 0x01, [0x03], 0x01⟩]
    let u := bounded 2 (hearing [0x02, 0x00, 0x00, 0x01, 0x03, 0x01] (running 0x10027E00 0xABCD .undef))
    u.env.resetPin = [] ∧ u.seqSt = .run ∧ plans ≠ [] ∧ plans.length = (2 : BitVec 5).toNat ∧
      ([0xAB, 0xCD] : List Byte).length = (2 : BitVec 5).toNat ∧ (2 : BitVec 5).toNat ≤ 24 ∧
      (0x7E : Byte).toNat + (2 : BitVec 5).toNat ≤ 0x80 ∧
      (∀ p ∈ plans, p.honest = true ∧ p.withinBound u.par.pollLimit = true) ∧
      u.env.sensorIn = plans.flatMap WritePlan.answers ++ [] := by decide

/-- V-CH2. -/
theorem witness_VreadRunsToCompletion :
    let plans : List ReadPlan := [⟨[], 0x01, [], 0x01, 0xFB⟩]
    let s := hearing [0x01, 0x01, 0xFB] (offered [⟨0x08010500, 0, .undef⟩])
    s.env.resetPin = [] ∧ accepts s ⟨0x08010500, 0, .undef⟩ [] (.vread 1 0x05) ∧ plans.length = (1 : BitVec 5).toNat ∧
      1 ≤ (1 : BitVec 5).toNat ∧ (1 : BitVec 5).toNat ≤ 24 ∧ (0x05 : Byte).toNat + (1 : BitVec 5).toNat ≤ 0x80 ∧
      (∀ p ∈ plans, p.honest = true ∧ p.withinBound s.par.pollLimit = true) ∧
      s.env.sensorIn = plans.flatMap ReadPlan.answers ++ [] :=
  ⟨by decide, ⟨by decide, by decide, by decide, by decide, by decide⟩, by decide, by decide, by decide, by decide,
    by decide, by decide⟩

/-- V-RO12. -/
theorem witness_WrfldIssuesEightEvents :
    let s := hearing [0x01, 0x01, 0xC0, 0x01, 0x01] (offered [⟨0x54000000, 0, .int 20⟩])
    s.env.resetPin = [] ∧ accepts s ⟨0x54000000, 0, .int 20⟩ [] (.wrfld 4 0) ∧
      lookupField s.par.masks 4 0 = .ok (Config.ledControlReg {}, ⟨0x30, .lut Config.illumTable⟩) ∧
      (Config.ledControlReg {}).width = 8 ∧ (Config.ledControlReg {}).access = .rw ∧
      fieldEncode ⟨0x30, .lut Config.illumTable⟩ 8 (.int 20) = some 0x10 ∧ (0x01 : Byte).getLsbD 1 = false ∧
      (0x01 : Byte).getLsbD 0 = true ∧ s.env.sensorIn = [0x01, 0x01, 0xC0, 0x01, 0x01] ++ [] :=
  ⟨by decide, ⟨by decide, by decide, by decide, by decide, by decide⟩, by decide, by decide, by decide,
    by decide +kernel, by decide, by decide, by decide⟩

theorem witness_RdfldIsRdregThenFdec :
    atLastReadByte (channelAt 0x48400000 .undef .rRead 0x00 4 3 0x0000FE) ⟨0x48400000, 0, .undef⟩ (.rdfld 0 2) 0x0000FE ∧
      decodeCommand (⟨0x18000000, 0, .undef⟩ : Command).cmd = .ok (.rdreg 0) ∧
      lookupField State.reset.par.masks 0 2 = .ok (Config.versionReg {}, ⟨0x0000FFFF, .fwver⟩) :=
  ⟨⟨by decide, by decide, ⟨4, 3, by decide, by decide, by decide⟩, by decide, by decide⟩, by decide, by decide⟩

end Sys2Proof.Tests
end

section
/-! SUPPORT. The statements about the numbers of 00_scope.md R9 and R14: rounding, and the round trip of the scale
adapter. Rounding is reasoned about through the pattern just below the quotient: `roundPattern_eq` says which of the two
patterns around the quotient it answers, and the values of patterns increase strictly. -/

namespace Sys2Proof.Machine

/-! ### The values of patterns -/

/-- A pattern as `t` whole binades and a significand of `m` units of 2^t; `m` may also be the next power of two. -/
theorem patternValue_binade {p t m : Nat} (hp : 1 ≤ p) (hm : m ≤ 2 ^ p) (ht : t = 0 ∨ 2 ^ (p - 1) ≤ m) :
    patternValue p (t * 2 ^ (p - 1) + m) = m * 2 ^ t := by
  have hpow := Nat.two_pow_pred_mul_two hp
  have hb : 0 < 2 ^ (p - 1) := Nat.two_pow_pos _
  unfold patternValue
  generalize 2 ^ (p - 1) = b at *
  obtain hlow | hnormal := Nat.lt_or_ge m b
  · obtain rfl : t = 0 := by omega
    simp [Nat.div_eq_of_lt hlow]
  obtain ⟨f, rfl⟩ := Nat.exists_eq_add_of_le hnormal
  obtain hf | rfl : f < b ∨ f = b := by omega
  · have hsplit : t * b + (b + f) = b * (t + 1) + f := by ring
    simp [hsplit, Nat.mul_add_div hb, Nat.div_eq_of_lt hf, Nat.mod_eq_of_lt hf]
  · have hsplit : t * f + (f + f) = f * (t + 2) := by ring
    have hvalue : f * 2 ^ (t + 1) = (f + f) * 2 ^ t := by ring
    simpa [hsplit, Nat.mul_div_cancel_left _ hb] using hvalue

theorem exists_binade {p : Nat} (hp : 1 ≤ p) (x : Nat) :
    ∃ t m, x = t * 2 ^ (p - 1) + m ∧ m < 2 ^ p ∧ (t = 0 ∨ 2 ^ (p - 1) ≤ m) := by
  rw [← Nat.two_pow_pred_mul_two hp]
  have hb : 0 < 2 ^ (p - 1) := Nat.two_pow_pos _
  generalize 2 ^ (p - 1) = b at *
  have hdiv := Nat.div_add_mod' x b
  have hmod := Nat.mod_lt x hb
  obtain he | ⟨t, he⟩ : x / b = 0 ∨ ∃ t, x / b = t + 1 := by cases x / b <;> simp
  · exact ⟨0, x, by simp, by rw [he] at hdiv; omega, .inl rfl⟩
  · refine ⟨t, b + x % b, ?_, by omega, .inr (by omega)⟩
    rw [he] at hdiv
    linarith

theorem patternValue_strictMono {p : Nat} (hp : 1 ≤ p) : StrictMono (patternValue p) := by
  refine strictMono_nat_of_lt_succ fun x => ?_
  obtain ⟨t, m, rfl, hm, ht⟩ := exists_binade hp x
  rw [Nat.add_assoc, patternValue_binade hp hm.le ht,
    patternValue_binade hp hm (ht.imp_right Nat.le_succ_of_le)]
  exact Nat.mul_lt_mul_of_pos_right (Nat.lt_succ_self m) (Nat.two_pow_pos t)

theorem patternValue_mul_strictMono {p d : Nat} (hp : 1 ≤ p) (hd : 0 < d) {x y : Nat} (h : x < y) :
    patternValue p x * d < patternValue p y * d :=
  Nat.mul_lt_mul_of_pos_right (patternValue_strictMono hp h) hd

theorem patternValue_mul_mono {p : Nat} (d : Nat) (hp : 1 ≤ p) {x y : Nat} (h : x ≤ y) :
    patternValue p x * d ≤ patternValue p y * d :=
  Nat.mul_le_mul_right d ((patternValue_strictMono hp).monotone h)

/-! ### The pattern just below a quotient -/

/-- The bits of the quotient `n / d` below a significand of `p` bits: the exponent that `roundPattern` rounds at. -/
def droppedBits (p n d : Nat) : Nat := (n / d).log2 + 1 - p

/-- The pattern of the greatest value of the format at or below `n / d`. -/
def floorPattern (p n d : Nat) : Nat :=
  droppedBits p n d * 2 ^ (p - 1) + n / (d * 2 ^ droppedBits p n d)

theorem significand_lt (p n d : Nat) : n / (d * 2 ^ droppedBits p n d) < 2 ^ p := by
  rw [← Nat.div_div_eq_div_mul, Nat.div_lt_iff_lt_mul (Nat.two_pow_pos _), ← Nat.pow_add]
  calc n / d < 2 ^ ((n / d).log2 + 1) := Nat.lt_log2_self
    _ ≤ 2 ^ (p + droppedBits p n d) := Nat.pow_le_pow_right (by decide) (by unfold droppedBits; omega)

theorem le_significand {p n d : Nat} (hp : 1 ≤ p) :
    droppedBits p n d = 0 ∨ 2 ^ (p - 1) ≤ n / (d * 2 ^ droppedBits p n d) := by
  refine or_iff_not_imp_left.mpr fun ht => ?_
  have hlog : p - 1 + droppedBits p n d = (n / d).log2 := by unfold droppedBits at *; omega
  have hq : n / d ≠ 0 := fun h0 => ht (by simp [droppedBits, h0, hp])
  rw [← Nat.div_div_eq_div_mul, Nat.le_div_iff_mul_le (Nat.two_pow_pos _), ← Nat.pow_add, hlog]
  exact Nat.log2_self_le hq

theorem patternValue_floorPattern {p n d : Nat} (hp : 1 ≤ p) :
    patternValue p (floorPattern p n d) = n / (d * 2 ^ droppedBits p n d) * 2 ^ droppedBits p n d :=
  patternValue_binade hp (significand_lt p n d).le (le_significand hp)

theorem patternValue_floorPattern_succ {p n d : Nat} (hp : 1 ≤ p) :
    patternValue p (floorPattern p n d + 1) = (n / (d * 2 ^ droppedBits p n d) + 1) * 2 ^ droppedBits p n d :=
  patternValue_binade hp (significand_lt p n d) ((le_significand hp).imp_right Nat.le_succ_of_le)

theorem floorPattern_le {p n d : Nat} (hp : 1 ≤ p) : patternValue p (floorPattern p n d) * d ≤ n := by
  rw [patternValue_floorPattern hp, Nat.mul_assoc, Nat.mul_comm (2 ^ _) d]
  exact Nat.div_mul_le_self _ _

theorem lt_floorPattern_succ {p n d : Nat} (hp : 1 ≤ p) (hd : 0 < d) :
    n < patternValue p (floorPattern p n d + 1) * d := by
  rw [patternValue_floorPattern_succ hp, Nat.mul_assoc, Nat.mul_comm (2 ^ _) d]
  exact Nat.lt_mul_of_div_lt (Nat.lt_succ_self _) (Nat.mul_pos hd (Nat.two_pow_pos _))

/-! ### Rounding -/

/-- Twice the quotient against the sum of the two values around it decides the rounding. -/
theorem roundPattern_eq {p n d : Nat} (inf : Nat) (hp : 2 ≤ p) :
    roundPattern p inf n d = min inf
      (let x := floorPattern p n d
      let mid := patternValue p x * d + patternValue p (x + 1) * d
      if 2 * n < mid then x else if mid < 2 * n then x + 1 else x + x % 2) := by
  have heven : 2 ∣ droppedBits p n d * 2 ^ (p - 1) := (dvd_pow_self 2 (by omega)).mul_left _
  have hmid : patternValue p (floorPattern p n d) * d + patternValue p (floorPattern p n d + 1) * d =
      2 * (d * 2 ^ droppedBits p n d * (n / (d * 2 ^ droppedBits p n d))) + d * 2 ^ droppedBits p n d := by
    rw [patternValue_floorPattern (by omega), patternValue_floorPattern_succ (by omega)]
    ring
  have hdiv := Nat.div_add_mod n (d * 2 ^ droppedBits p n d)
  simp only [hmid]
  change min inf (droppedBits p n d * 2 ^ (p - 1) + roundNearestEven n (d * 2 ^ droppedBits p n d)) = _
  unfold floorPattern roundNearestEven
  generalize d * 2 ^ droppedBits p n d * _ = whole at *
  generalize d * 2 ^ droppedBits p n d = unit at *
  generalize droppedBits p n d * 2 ^ (p - 1) = binades at *
  congr 1
  split_ifs <;> omega

theorem roundPattern_le_inf (p inf n d : Nat) : roundPattern p inf n d ≤ inf := Nat.min_le_left _ _

/-- A rounded pattern below that of infinity is one of the two around the quotient: the one on the quotient's side of
the middle between their values, and the even one in the middle. -/
theorem roundPattern_cases {p inf n d : Nat} (hp : 2 ≤ p) (hlt : roundPattern p inf n d < inf) :
    let x := floorPattern p n d
    let mid := patternValue p x * d + patternValue p (x + 1) * d
    (roundPattern p inf n d = x ∧ (2 * n < mid ∨ 2 * n = mid ∧ x % 2 = 0)) ∨
      (roundPattern p inf n d = x + 1 ∧ (mid < 2 * n ∨ 2 * n = mid ∧ (x + 1) % 2 = 0)) := by
  have hr := roundPattern_eq (n := n) (d := d) inf hp
  generalize roundPattern p inf n d = r at *
  dsimp only at hr ⊢
  split_ifs at hr <;> omega

/-- The pattern answered is the nearest, or of two nearest the even one. -/
theorem roundPattern_nearest {p inf n d q : Nat} (hp : 2 ≤ p) (hd : 0 < d) (hlt : roundPattern p inf n d < inf)
    (hq : q ≠ roundPattern p inf n d) :
    ((patternValue p (roundPattern p inf n d) * d : Int) - n).natAbs < ((patternValue p q * d : Int) - n).natAbs ∨
      ((patternValue p (roundPattern p inf n d) * d : Int) - n).natAbs = ((patternValue p q * d : Int) - n).natAbs ∧
        roundPattern p inf n d % 2 = 0 := by
  have hp1 : 1 ≤ p := by omega
  have hbelow := floorPattern_le (n := n) (d := d) hp1
  have habove := lt_floorPattern_succ (n := n) hp1 hd
  simp only [← Nat.cast_mul]
  obtain ⟨hr, hside⟩ | ⟨hr, hside⟩ := roundPattern_cases hp hlt
  · rw [hr] at hq ⊢
    obtain hlow | hhigh : q < floorPattern p n d ∨ floorPattern p n d + 1 ≤ q := by omega
    · have := patternValue_mul_strictMono hp1 hd hlow
      omega
    · have := patternValue_mul_mono d hp1 hhigh
      omega
  · rw [hr] at hq ⊢
    obtain hlow | hhigh : q ≤ floorPattern p n d ∨ floorPattern p n d + 1 < q := by omega
    · have := patternValue_mul_mono d hp1 hlow
      omega
    · have := patternValue_mul_strictMono hp1 hd hhigh
      omega

/-- Infinity is answered from half way between its pattern and the one before. -/
theorem roundPattern_eq_inf_iff {p inf n d : Nat} (hp : 2 ≤ p) (hd : 0 < d) (hinf : inf % 2 = 0) :
    roundPattern p inf n d = inf ↔ (patternValue p (inf - 1) + patternValue p inf) * d ≤ 2 * n := by
  have hp1 : 1 ≤ p := by omega
  have hbelow := floorPattern_le (n := n) (d := d) hp1
  have habove := lt_floorPattern_succ (n := n) hp1 hd
  have hprev := patternValue_mul_mono d hp1 (Nat.sub_le inf 1)
  have hr := roundPattern_eq (n := n) (d := d) inf hp
  dsimp only at hr
  rw [Nat.add_mul]
  generalize roundPattern p inf n d = r at *
  obtain hover | hlast | hunder :
      inf ≤ floorPattern p n d ∨ inf = floorPattern p n d + 1 ∨ floorPattern p n d + 1 ≤ inf - 1 := by omega
  · have hvalue := patternValue_mul_mono d hp1 hover
    split_ifs at hr <;> omega
  · subst hlast
    rw [Nat.add_sub_cancel]
    split_ifs at hr <;> omega
  · have hvalue := patternValue_mul_mono d hp1 hunder
    split_ifs at hr <;> omega

/-! ### The binary64 operations -/

theorem f64Mag_eq_patternValue (z : F64) : f64Mag z = patternValue 53 (z.toNat % 2 ^ 63) := by
  have hexp : z.toNat % 2 ^ 63 / 2 ^ 52 = f64Exp z := by
    rw [f64Exp, Nat.shiftRight_eq_div_pow]
    omega
  have hfrac : z.toNat % 2 ^ 63 % 2 ^ 52 = f64Frac z := by
    rw [f64Frac]
    omega
  have hsub : f64Exp z = 0 → z.toNat % 2 ^ 63 = f64Frac z := by omega
  unfold patternValue f64Mag
  rw [Nat.shiftLeft_eq]
  simp only [Nat.add_one_sub_one, hexp, hfrac]
  split_ifs with h0
  · exact (hsub h0).symm
  · rfl

theorem f64Round_roundedTo (neg : Bool) (n d : Nat) : roundedTo neg n d (f64Round neg n d) := by
  have hlt : roundPattern 53 f64InfPattern n d < 2 ^ 63 :=
    (roundPattern_le_inf _ _ _ _).trans_lt (by decide)
  unfold roundedTo f64Round
  rw [BitVec.getLsbD_ofNat, BitVec.toNat_ofNat]
  generalize roundPattern 53 f64InfPattern n d = r at *
  simp only [Nat.testBit_eq_decide_div_mod_eq]
  cases neg <;> simp <;> omega

section Finite
variable {x y : F64}

theorem f64IsNaN_of_finite (hx : f64Finite x = true) : f64IsNaN x = false := by simp [f64IsNaN, hx]

theorem f64IsInf_of_finite (hx : f64Finite x = true) : f64IsInf x = false := by simp [f64IsInf, hx]

theorem f64Mul_of_finite (hx : f64Finite x = true) (hy : f64Finite y = true) :
    f64Mul x y = f64Round (xor (f64Neg x) (f64Neg y)) (f64Mag x * f64Mag y) (2 ^ 1074) := by
  simp only [f64Mul, f64IsNaN_of_finite, f64IsInf_of_finite, hx, hy, Bool.or_false, Bool.false_eq_true, if_false]

theorem f64Div_of_finite (hx : f64Finite x = true) (hy : f64Finite y = true) (h0 : f64Mag y ≠ 0) :
    f64Div x y = f64Round (xor (f64Neg x) (f64Neg y)) (f64Mag x * 2 ^ 1074) (f64Mag y) := by
  simp only [f64Div, f64IsNaN_of_finite, f64IsInf_of_finite, hx, hy, h0, Bool.or_false, Bool.false_eq_true, if_false]

theorem f64Sub_of_finite (hx : f64Finite x = true) (hy : f64Finite y = true) :
    f64Sub x y = f64Round (f64SubNeg x y) (f64Scaled x - f64Scaled y).natAbs 1 := by
  simp only [f64Sub, f64IsNaN_of_finite, f64IsInf_of_finite, hx, hy, Bool.or_false, Bool.false_eq_true, if_false]

end Finite

/-- Settles O42: rounding through `roundPattern_eq`, and each operation on finite operands is one rounding. -/
theorem roundingIsNearestTiesToEven : Obligations.RoundingIsNearestTiesToEven := by
  refine ⟨fun _ _ _ _ _ => roundPattern_nearest, fun _ _ _ _ => roundPattern_eq_inf_iff, f64Mag_eq_patternValue,
    fun x y hx hy => ⟨?mul, fun h0 => ?div, ?sub⟩, fun n => f64Round_roundedTo _ _ _⟩
  case mul => exact f64Mul_of_finite hx hy ▸ f64Round_roundedTo _ _ _
  case div => exact f64Div_of_finite hx hy h0 ▸ f64Round_roundedTo _ _ _
  case sub => exact f64Sub_of_finite hx hy ▸ f64Round_roundedTo _ _ _

/-! ### The round trip of the integration time -/

/-- The raw codes whose decode encodes to one less (90_conflicts.md C5). -/
def lossyCodes : List Nat :=
  [3, 6, 12, 24, 48, 55, 63, 96, 103, 110, 119, 126, 185, 192, 199, 206, 213, 220, 231, 238, 245, 252]

/-- The raw code of an integration time after a decode and an encode. -/
def settledCode (r : Nat) : Nat := if r ∈ lossyCodes then r - 1 else r

theorem settledCode_le (r : Nat) : settledCode r ≤ r := by
  unfold settledCode
  split <;> omega

/-- A lossy code never follows a lossy code, so one round trip settles. -/
theorem settledCode_settledCode (r : Nat) : settledCode (settledCode r) = settledCode r := by
  have hpred : ∀ c ∈ lossyCodes, c - 1 ∉ lossyCodes := by decide
  by_cases hr : r ∈ lossyCodes
  · simp [settledCode, hr, hpred r hr]
  · simp [settledCode, hr]

/-- The binary logarithm, of a large number taken after its low 1024 bits are cut off: the logarithm is evaluated bit by
bit, and the exact results of binary64 have about 1074 bits too many for that. -/
def strippedLog2 (n : Nat) : Nat := if 2 ^ 1024 ≤ n then (n / 2 ^ 1024).log2 + 1024 else n.log2

theorem log2_div_two_pow {k n : Nat} (h : 2 ^ k ≤ n) : (n / 2 ^ k).log2 + k = n.log2 := by
  have hpos : 0 < 2 ^ k := Nat.two_pow_pos k
  have hquot : n / 2 ^ k ≠ 0 := (Nat.div_pos h hpos).ne'
  refine ((Nat.log2_eq_iff (by omega)).mpr ⟨?_, ?_⟩).symm
  · rw [Nat.pow_add, ← Nat.le_div_iff_mul_le hpos]
    exact Nat.log2_self_le hquot
  · rw [Nat.add_right_comm, Nat.pow_add, ← Nat.div_lt_iff_lt_mul hpos]
    exact Nat.lt_log2_self

theorem strippedLog2_eq (n : Nat) : strippedLog2 n = n.log2 := by
  unfold strippedLog2
  split_ifs with h
  · exact log2_div_two_pow h
  · rfl

/-- `roundPattern` with its logarithm stripped, for evaluation. -/
def strippedRoundPattern (p inf n d : Nat) : Nat :=
  let t := strippedLog2 (n / d) + 1 - p
  min inf (t * 2 ^ (p - 1) + roundNearestEven n (d * 2 ^ t))

theorem roundPattern_eq_stripped : roundPattern = strippedRoundPattern := by
  funext p inf n d
  rw [strippedRoundPattern, strippedLog2_eq, roundPattern]

/-- The exact quotient and product of each of the 256 codes, evaluated: which codes lose one follows from how the
pattern of K and the quotient were rounded (R176, R177). -/
theorem scaleEncode_scaleDecode : ∀ r < 256,
    scaleEncode Config.scaleK (scaleDecode Config.scaleK r) = some (settledCode r : Int) := by
  simp only [scaleEncode, scaleDecode, scaleOperand, f64Mul, f64Div, f64OfInt, f64Round, roundPattern_eq_stripped]
  decide +kernel

/-- Settles O41: every code goes to its settled code, which is its own settled code. -/
theorem scaleRoundTripSettles : Obligations.ScaleRoundTripSettles := by
  intro _ n r _ hr
  have hcode : r < 256 := by omega
  refine ⟨settledCode r, scaleEncode_scaleDecode r hcode, rfl, ?_⟩
  rw [scaleEncode_scaleDecode _ ((settledCode_le r).trans_lt hcode), settledCode_settledCode]

end Sys2Proof.Machine
end

section
/-! SUPPORT. The statements about what every step keeps: the status latches, the fault log, the snapshot, the parameters
and the time input (10_state.md R20–R31). `step_advances` says once what a step does to all of them: apart from the
snapshot, the part of a command's body that runs leaves them, and then the command goes on, completes or faults. -/

namespace Sys2Proof.Machine

/-! ### The time input -/

theorem f64Ext_eq_nan_iff {x : F64} : f64Ext x = .nan ↔ f64IsNaN x = true := by
  unfold f64Ext
  split_ifs <;> simp_all

theorem extLe_refl {a : Ext} (h : a ≠ .nan) : extLe a a = true := by
  cases a with
  | nan => exact absurd rfl h
  | fin n => simp [extLe]
  | negInf | posInf => rfl

theorem ne_nan_of_extLe {a b : Ext} (h : extLe a b = true) : b ≠ .nan := by
  rintro rfl
  cases a <;> cases h

theorem extLe_trans {a b c : Ext} (hab : extLe a b = true) (hbc : extLe b c = true) : extLe a c = true := by
  cases a <;> cases b <;> cases c <;> simp_all [extLe]
  omega

/-- The time input has not run backwards from `a` to `b`, if `a` is a number (44_register_ops.md R221). -/
def timeNotBefore (a b : F64) : Prop :=
  f64IsNaN a = false → f64IsNaN b = false ∧ extLe (f64Ext a) (f64Ext b) = true

theorem timeNotBefore_of_extLe {a b : F64} (h : extLe (f64Ext a) (f64Ext b) = true) : timeNotBefore a b :=
  fun _ => ⟨Bool.eq_false_iff.mpr (mt f64Ext_eq_nan_iff.mpr (ne_nan_of_extLe h)), h⟩

theorem timeNotBefore_refl (a : F64) : timeNotBefore a a :=
  fun ha => ⟨ha, extLe_refl (mt f64Ext_eq_nan_iff.mp (Bool.eq_false_iff.mp ha))⟩

theorem timeNotBefore_trans {a b c : F64} (hab : timeNotBefore a b) (hbc : timeNotBefore b c) : timeNotBefore a c :=
  fun ha =>
    have ⟨hb, hle⟩ := hab ha
    have ⟨hc, hle'⟩ := hbc hb
    ⟨hc, extLe_trans hle hle'⟩

theorem timeNotBefore_now (s : State) : timeNotBefore s.env.lastNow (now s).2.env.lastNow := by
  obtain ⟨-, -, -, -, hlast, proposed, hread⟩ := now_state s
  rw [hlast, hread]
  obtain h | ⟨h, hle⟩ := timeReading_cases s.env.lastNow proposed
  · exact h.symm ▸ timeNotBefore_refl _
  · exact h.symm ▸ timeNotBefore_of_extLe hle

/-! ### What a command's body leaves before it ends -/

/-- `u` has the parameters, CFG_OK, the status latches, the fault log, CMDCNT and the snapshot of `s`, at a time not
before that of `s`. -/
structure Keeps (s u : State) : Prop where
  par : u.par = s.par
  cfgOk : u.cfgOk = s.cfgOk
  rstat : u.rstat = s.rstat
  flog : u.flog = s.flog
  finfo : u.finfo = s.finfo
  cmdcnt : u.cmdcnt = s.cmdcnt
  snapV : u.snapV = s.snapV
  snapR : u.snapR = s.snapR
  snapD : u.snapD = s.snapD
  time : timeNotBefore s.env.lastNow u.env.lastNow

theorem Keeps.trans {s u t : State} (hsu : Keeps s u) (hut : Keeps u t) : Keeps s t where
  par := hut.par.trans hsu.par
  cfgOk := hut.cfgOk.trans hsu.cfgOk
  rstat := hut.rstat.trans hsu.rstat
  flog := hut.flog.trans hsu.flog
  finfo := hut.finfo.trans hsu.finfo
  cmdcnt := hut.cmdcnt.trans hsu.cmdcnt
  snapV := hut.snapV.trans hsu.snapV
  snapR := hut.snapR.trans hsu.snapR
  snapD := hut.snapD.trans hsu.snapD
  time := timeNotBefore_trans hsu.time hut.time

/-- The fields that a body writes freely: the result latches, the channel, the sequencer and TRACE. -/
theorem keeps_working (s : State) {rdata : Latch Raw} {rval : Sem} {chSt : ChSt} {chAddr : Latch Byte}
    {chN chI : Latch (BitVec 5)} {chOut chAcc : Latch Raw} {chPolls : Nat} {seqSt : SeqSt} {seqCmd : Latch Command}
    {seqT0 : Latch F64} {trace : List Config.BusEvent} :
    Keeps s { s with rdata, rval, chSt, chAddr, chN, chI, chOut, chAcc, chPolls, seqSt, seqCmd, seqT0, trace } :=
  ⟨rfl, rfl, rfl, rfl, rfl, rfl, rfl, rfl, rfl, timeNotBefore_refl _⟩

theorem Keeps.refl (s : State) : Keeps s s := keeps_working s

theorem keeps_now (s : State) : Keeps s (now s).2 :=
  ⟨now_par s, now_cfgOk s, now_rstat s, now_flog s, now_finfo s, now_cmdcnt s, now_snapV s, now_snapR s, now_snapD s,
    timeNotBefore_now s⟩

theorem keeps_sensorAnswer (p : Config.Preg) (s : State) : Keeps s (sensorAnswer p s).2 := by
  obtain ⟨hs, -, -, hlast⟩ := sensorAnswer_state p s
  constructor <;> simp [hlast, timeNotBefore_refl]

theorem keeps_sampleReset (s : State) : Keeps s (sampleReset s) :=
  ⟨rfl, rfl, rfl, rfl, rfl, rfl, rfl, rfl, rfl, timeNotBefore_refl _⟩

theorem keeps_acceptCommand (c : Command) (rest : List Command) (s : State) : Keeps s (acceptCommand c rest s) :=
  ⟨rfl, rfl, rfl, rfl, rfl, rfl, rfl, rfl, rfl, timeNotBefore_refl _⟩

theorem Keeps.takeSnapshot {s u : State} (reg : BitVec 3) (v : Raw) (h : Keeps s u) :
    Keeps (takeSnapshot reg v s) (takeSnapshot reg v u) :=
  ⟨h.par, h.cfgOk, h.rstat, h.flog, h.finfo, h.cmdcnt, rfl, rfl, rfl, h.time⟩

theorem Keeps.dropSnapshot {s u : State} (h : Keeps s u) :
    Keeps { s with snapV := false } { u with snapV := false } :=
  ⟨h.par, h.cfgOk, h.rstat, h.flog, h.finfo, h.cmdcnt, rfl, h.snapR, h.snapD, h.time⟩

/-- From `s` to `t` a body ran on, or to its end without fault, or to a fault (60_exceptions.md R252, R255). -/
inductive Advances (s : State) : State → Prop
  | goesOn {t : State} (h : Keeps s t) : Advances s t
  | completes {u : State} (h : Keeps s u) : Advances s (finishOk u)
  | faults {u : State} (info : FaultInfo) (h : Keeps s u) : Advances s (raise info u)

theorem Keeps.advances {s u t : State} (hsu : Keeps s u) (hut : Advances u t) : Advances s t := by
  cases hut with
  | goesOn h => exact .goesOn (hsu.trans h)
  | completes h => exact .completes (hsu.trans h)
  | faults info h => exact .faults info (hsu.trans h)

theorem Advances.par {s t : State} (h : Advances s t) : t.par = s.par := by
  cases h with | goesOn h | completes h | faults _ h => exact h.par

theorem Advances.cfgOk {s t : State} (h : Advances s t) : t.cfgOk = s.cfgOk := by
  cases h with | goesOn h | completes h | faults _ h => exact h.cfgOk

theorem Advances.snapV {s t : State} (h : Advances s t) : t.snapV = s.snapV := by
  cases h with | goesOn h | completes h | faults _ h => exact h.snapV

theorem Advances.snapR {s t : State} (h : Advances s t) : t.snapR = s.snapR := by
  cases h with | goesOn h | completes h | faults _ h => exact h.snapR

theorem Advances.snapD {s t : State} (h : Advances s t) : t.snapD = s.snapD := by
  cases h with | goesOn h | completes h | faults _ h => exact h.snapD

theorem Advances.time {s t : State} (h : Advances s t) : timeNotBefore s.env.lastNow t.env.lastNow := by
  cases h with | goesOn h | completes h | faults _ h => exact h.time

/-! ### Accepting a command -/

theorem unlessSet_ok {w mbz : CmdWord} {i j : Instr} (h : unlessSet w mbz i = .ok j) : i = j := by
  unfold unlessSet at h
  split at h <;> cases h
  rfl

/-- A command word never decodes to a bus event. -/
theorem decodeCommand_busEvent {w : CmdWord} {i : Instr} (h : decodeCommand w = .ok i) : i.busEvent = none := by
  unfold decodeCommand at h
  split at h
  iterate 13 next => obtain rfl := unlessSet_ok h; rfl
  next => cases h

/-- The commands that drop the snapshot that `s` holds (10_state.md R27). -/
def dropsSnapshot (i : Instr) (s : State) : Prop :=
  i = .sreset ∨ ∃ reg, s.snapR = .val reg ∧ (i = .wrreg reg ∨ ∃ fld, i = .wrfld reg fld)

theorem dropSnapshotOf_advances {i : Instr} {reg : BitVec 3} {s t : State}
    (hi : i = .wrreg reg ∨ ∃ fld, i = .wrfld reg fld)
    (h : Advances (dropSnapshotOf reg s) t) :
    Advances s t ∨ dropsSnapshot i s ∧ Advances { s with snapV := false } t := by
  obtain ⟨-, hreg, hd⟩ | ⟨-, hd⟩ := dropSnapshotOf_cases reg s
  · exact .inr ⟨.inr ⟨reg, hreg, hi⟩, hd ▸ h⟩
  · exact .inl (hd ▸ h)

/-- What a command does when it is accepted. -/
theorem exec_command_advances {i : Instr} {s t : State} (hi : i.busEvent = none) (h : exec i s = .next t) :
    Advances s t ∨ dropsSnapshot i s ∧ t.seqCmd = s.seqCmd ∧ Advances { s with snapV := false } t := by
  cases i with
  | nop => cases next_inj h; exact .inl (.completes (.refl s))
  | vread len addr =>
    obtain ⟨-, rfl⟩ | ⟨-, rfl⟩ := execVread_next h
    · exact .inl (.goesOn (keeps_working s))
    · exact .inl (.faults _ (.refl s))
  | vwrite len addr =>
    obtain ⟨-, c, -, rfl⟩ | ⟨-, rfl⟩ := execVwrite_next h
    · exact .inl (.goesOn (keeps_working s))
    · exact .inl (.faults _ (.refl s))
  | rdreg reg =>
    obtain rfl | ⟨r, -, rfl⟩ := execRdreg_next h
    · exact .inl (.faults _ (.refl s))
    · exact .inl (.goesOn (keeps_working s))
  | wrreg reg =>
    obtain ⟨info, rfl⟩ | ⟨r, c, -, -, -, rfl⟩ := execWrreg_next h
    · exact .inl (.faults _ (.refl s))
    · refine (dropSnapshotOf_advances (.inl rfl) (.goesOn (keeps_working _))).imp_right fun ⟨hd, ha⟩ => ?_
      exact ⟨hd, dropSnapshotOf_seqCmd _ _, ha⟩
  | fdec reg fld =>
    obtain ⟨info, rfl⟩ | ⟨r, f, d, v, -, -, -, -, -, rfl⟩ := execFdec_next h
    · exact .inl (.faults _ (.refl s))
    · exact .inl (.completes (keeps_working s))
  | fdecr reg fld =>
    obtain ⟨info, rfl⟩ | ⟨r, f, c, v, -, -, -, rfl⟩ := execFdecr_next h
    · exact .inl (.faults _ (.refl s))
    · exact .inl (.completes (keeps_working s))
  | fenc reg fld =>
    obtain ⟨info, rfl⟩ | ⟨r, f, c, bits, -, -, -, rfl⟩ := execFenc_next h
    · exact .inl (.faults _ (.refl s))
    · exact .inl (.completes (keeps_working s))
  | fins reg fld =>
    obtain ⟨info, rfl⟩ | ⟨r, f, c, bits, -, -, -, rfl⟩ := execFins_next h
    · exact .inl (.faults _ (.refl s))
    · exact .inl (.completes (keeps_working s))
  | rdfld reg fld =>
    obtain ⟨info, rfl⟩ | ⟨r, f, -, rfl⟩ := execRdfld_next h
    · exact .inl (.faults _ (.refl s))
    · exact .inl (.goesOn (keeps_working s))
  | wrfld reg fld =>
    obtain ⟨info, rfl⟩ | ⟨r, f, c, bits, -, -, -, -, rfl⟩ := execWrfld_next h
    · exact .inl (.faults _ (.refl s))
    · refine (dropSnapshotOf_advances (.inr ⟨fld, rfl⟩) (.goesOn (keeps_working _))).imp_right fun ⟨hd, ha⟩ => ?_
      exact ⟨hd, dropSnapshotOf_seqCmd _ _, ha⟩
  | waitrdy =>
    obtain ⟨c, -, ⟨-, rfl⟩ | ⟨x, -, rfl⟩⟩ := execWaitrdy_next h
    · exact .inl (.faults _ (.refl s))
    · exact .inl (.goesOn ((keeps_now s).trans (keeps_working _)))
  | sreset =>
    cases next_inj ((execSreset_eq s).symm.trans h)
    exact .inr ⟨.inl rfl, rfl, .goesOn (keeps_working _)⟩
  | busRdStatus | busSelW | busSelR | busWrData | busRdData => cases hi

/-! ### The channel's events -/

/-- The commands whose MemRead is taken as the snapshot of a register (10_state.md R27). -/
def takesSnapshot (w : CmdWord) (reg : BitVec 3) : Prop :=
  decodeCommand w = .ok (.rdreg reg) ∨ (∃ fld, decodeCommand w = .ok (.rdfld reg fld)) ∨
    decodeCommand w = .ok .waitrdy ∧ reg = controlIndex

/-- A MemRead's return takes the snapshot: its value goes to RDATA too. -/
def takesOnReturn (s t : State) : Prop :=
  ∃ c reg v, s.seqCmd = .val c ∧ takesSnapshot c.cmd reg ∧ t.rdata = .val v ∧ Advances (takeSnapshot reg v s) t

theorem takesOnReturn.of_keeps {s u t : State} (h : takesOnReturn u t) (hk : Keeps s u)
    (hcmd : u.seqCmd = s.seqCmd) : takesOnReturn s t :=
  have ⟨c, reg, v, hc, ht, hd, ha⟩ := h
  ⟨c, reg, v, hcmd ▸ hc, ht, hd, (hk.takeSnapshot reg v).advances ha⟩

theorem readReturn_advances {v : Raw} {s t : State} (h : readReturn v s = .next t) :
    Advances s t ∨ takesOnReturn s t := by
  obtain ⟨c, hc, ⟨len, addr, hd, h⟩ | ⟨reg, hd, h⟩ | ⟨reg, fld, hd, h⟩ | ⟨reg, fld, hd, h⟩ | ⟨hd, h⟩ | ⟨hd, h⟩⟩ :=
    readReturn_next h
  · cases next_inj h; exact .inl (.completes (keeps_working s))
  · cases next_inj h; exact .inr ⟨c, reg, v, hc, .inl hd, rfl, .completes (keeps_working _)⟩
  · obtain ⟨info, -, rfl⟩ | ⟨r, f, -, ⟨x, -, rfl⟩ | ⟨-, rfl⟩⟩ := rdfldReturn_next h
    · exact .inl (.faults _ (.refl s))
    · exact .inr ⟨c, reg, v, hc, .inr (.inl ⟨fld, hd⟩), rfl, .completes (keeps_working _)⟩
    · exact .inr ⟨c, reg, v, hc, .inr (.inl ⟨fld, hd⟩), rfl, .faults _ (keeps_working _)⟩
  · obtain ⟨info, -, rfl⟩ | ⟨r, f, bits, -, -, rfl⟩ := wrfldMerge_next h
    · exact .inl (.faults _ (.refl s))
    · exact .inl (.goesOn (keeps_working s))
  · cases next_inj ((waitrdyPolled_eq v s).symm.trans h)
    split
    · exact .inr ⟨c, controlIndex, v, hc, .inr (.inr ⟨hd, rfl⟩), rfl, .completes (keeps_working _)⟩
    · exact .inr ⟨c, controlIndex, v, hc, .inr (.inr ⟨hd, rfl⟩), rfl, .goesOn (keeps_working _)⟩
  · cases next_inj ((sresetMerge_eq v s).symm.trans h); exact .inl (.goesOn (keeps_working s))

theorem writeReturn_advances {v : Raw} {s t : State} (h : writeReturn v s = .next t) : Advances s t := by
  obtain ⟨c, hc, ⟨len, addr, hd, h⟩ | ⟨reg, hd, h⟩ | ⟨reg, fld, hd, h⟩ | ⟨hd, h⟩⟩ := writeReturn_next h
  · cases next_inj h; exact .completes (keeps_working s)
  · cases next_inj h; exact .completes (keeps_working s)
  · cases next_inj h; exact .completes (keeps_working s)
  · cases next_inj h
    exact .goesOn ((keeps_working s).trans ((keeps_now _).trans (keeps_working _)))

/-- What a bus event does that the channel issues. -/
theorem exec_event_advances {i : Instr} {s u t : State} (hi : channelEvent s = .issue i u) (h : exec i u = .next t) :
    Advances s t ∨ s.chSt = .rRead ∧ takesOnReturn s t := by
  obtain ⟨-, rfl, rfl⟩ | ⟨hst, rfl, rfl⟩ | ⟨-, rfl, addr, -, rfl⟩ | ⟨-, rfl, addr, k, -, -, rfl⟩ |
    ⟨-, rfl, out, n, k, -, -, -, rfl⟩ := channelEvent_issue hi
  · refine .inl ((keeps_sensorAnswer .status s).advances ?_)
    obtain ⟨-, rfl⟩ | ⟨-, -, rfl⟩ | ⟨-, -, addr, i, -, -, rfl⟩ := execBusRdStatus_next h
    · exact .goesOn (keeps_working _)
    · exact .goesOn (keeps_working _)
    · exact .faults _ (keeps_working _)
  · have hs := keeps_sensorAnswer .readData s
    obtain ⟨-, acc, n, k, -, -, -, -, ⟨-, rfl⟩ | ⟨-, h⟩⟩ := execBusRdData_next h
    · exact .inl (.goesOn (hs.trans (keeps_working _)))
    · obtain h | h := readReturn_advances h
      · exact .inl ((hs.trans (keeps_working _)).advances h)
      · exact .inr ⟨hst, h.of_keeps (hs.trans (keeps_working _)) (sensorAnswer_seqCmd _ s)⟩
  · obtain ⟨-, addr, -, -, rfl⟩ := execBusSelW_next h
    exact .inl (.goesOn (keeps_working _))
  · obtain ⟨-, addr, k, -, -, -, rfl⟩ := execBusSelR_next h
    exact .inl (.goesOn (keeps_working _))
  · obtain ⟨-, out, n, k, -, -, -, -, -, ⟨-, rfl⟩ | ⟨-, h⟩⟩ := execBusWrData_next h
    · exact .inl (.goesOn (keeps_working _))
    · exact .inl ((keeps_working _).advances (writeReturn_advances h))

/-! ### Every step -/

theorem waitTick_advances {s t : State} (h : waitTick s = .next t) : Advances s t := by
  obtain ⟨c, t0, limit, -, -, -, ⟨-, rfl⟩ | ⟨-, rfl⟩⟩ := waitTick_next h
  · exact .completes ((keeps_now s).trans (keeps_working _))
  · exact .goesOn ((keeps_now s).trans (keeps_working _))

theorem settleTick_advances {s t : State} (h : settleTick s = .next t) : Advances s t := by
  obtain ⟨t0, -, ⟨-, rfl⟩ | ⟨-, rfl⟩⟩ := settleTick_next h
  · exact .completes ((keeps_now s).trans (keeps_working _))
  · exact .goesOn (keeps_now s)

/-- A step accepts a command that drops the snapshot. -/
def dropsOnAccept (s t : State) : Prop :=
  s.seqSt = .idle ∧ (∃ c i, t.seqCmd = .val c ∧ decodeCommand c.cmd = .ok i ∧ dropsSnapshot i s) ∧
    Advances { s with snapV := false } t

/-- What a step without reset does: the snapshot stays, is taken or is dropped; for the rest a body runs on, completes
or faults. -/
theorem step_advances {s t : State} (hr : resetAsserted s = false) (h : step s = .next t) :
    Advances s t ∨ (s.chSt = .rRead ∧ takesOnReturn s t) ∨ dropsOnAccept s t := by
  have hs := keeps_sampleReset s
  obtain ⟨hr', -⟩ | ⟨-, ⟨-, -, rfl⟩ | ⟨hidle, c, rest, -, hacc⟩ | ⟨-, i, u, hi, h⟩ | ⟨-, h⟩ | ⟨-, h⟩⟩ := step_next h
  · cases hr.symm.trans hr'
  · exact .inl (.goesOn hs)
  · have ha := hs.trans (keeps_acceptCommand c rest _)
    obtain ⟨-, reg, fld, -, rfl⟩ | ⟨-, -, rfl⟩ | ⟨-, i, hdec, h⟩ := hacc
    · exact .inl (.faults _ ha)
    · exact .inl (.faults _ ha)
    · obtain h | ⟨hdrop, hcmd, h⟩ := exec_command_advances (decodeCommand_busEvent hdec) h
      · exact .inl (ha.advances h)
      · exact .inr (.inr ⟨hidle, ⟨c, i, hcmd, hdec, hdrop⟩, ha.dropSnapshot.advances h⟩)
  · obtain h | ⟨hst, h⟩ := exec_event_advances hi h
    · exact .inl (hs.advances h)
    · exact .inr (.inl ⟨hst, h.of_keeps hs (sampleReset_seqCmd s)⟩)
  · exact .inl (hs.advances (waitTick_advances h))
  · exact .inl (hs.advances (settleTick_advances h))

/-! ### The status latches and the fault log -/

theorem FaultInfo.code_mem (info : FaultInfo) : 1 ≤ info.code.toNat ∧ info.code.toNat ≤ 9 := by
  cases info <;> simp [FaultInfo.code]

theorem getLsbD_logFault (flog : BitVec 16) (info : FaultInfo) (k : Nat) :
    (logFault flog info.code).getLsbD k = (flog.getLsbD k || decide (k = info.code.toNat)) := by
  have hcode := info.code_mem
  unfold logFault
  generalize info.code.toNat = c at *
  rw [BitVec.getLsbD_or, BitVec.getLsbD_shiftLeft, BitVec.getLsbD_one]
  congr 1
  rw [Bool.eq_iff_iff]
  simp only [Bool.and_eq_true, Bool.not_eq_true', decide_eq_true_eq, decide_eq_false_iff_not]
  omega

/-- The part of CompletionWritesStatus that speaks of the two states only. -/
def writesStatus (s t : State) : Prop :=
  (t.cmdcnt = s.cmdcnt ∧ t.rstat = s.rstat ∧ t.flog = s.flog ∧ t.finfo = s.finfo) ∨
    (t.cmdcnt = s.cmdcnt + 1 ∧ t.seqSt = .idle ∧
      ((t.rstat = 0 ∧ t.flog = s.flog ∧ t.finfo = s.finfo) ∨
        ∃ info : FaultInfo, t.rstat = info.code ∧ 1 ≤ info.code.toNat ∧ info.code.toNat ≤ 9 ∧
          (∀ k, t.flog.getLsbD k = (s.flog.getLsbD k || decide (k = info.code.toNat))) ∧ t.finfo = .val info))

theorem Advances.writesStatus {s t : State} (h : Advances s t) : writesStatus s t := by
  cases h with
  | goesOn h => exact .inl ⟨h.cmdcnt, h.rstat, h.flog, h.finfo⟩
  | completes h => exact .inr ⟨congrArg (· + 1) h.cmdcnt, rfl, .inl ⟨rfl, h.flog, h.finfo⟩⟩
  | faults info h =>
    exact .inr ⟨congrArg (· + 1) h.cmdcnt, rfl,
      .inr ⟨info, rfl, info.code_mem.1, info.code_mem.2, h.flog ▸ getLsbD_logFault _ info, rfl⟩⟩

/-- Settles O47: the snapshot is no status latch, so each case of `step_advances` shows it. -/
theorem completionWritesStatus : Obligations.CompletionWritesStatus := by
  intro s t hr h
  obtain h | ⟨-, c, reg, v, -, -, -, h⟩ | ⟨-, -, h⟩ := step_advances hr h
  · exact h.writesStatus
  · exact h.writesStatus
  · exact h.writesStatus

/-- FLOG's unused bits are 0 when only bits 1 to 9 may be set (10_state.md R26). -/
theorem unusedFlog_iff {flog : BitVec 16} :
    flog &&& 0xFC01 = 0 ↔ ∀ k, flog.getLsbD k = true → 1 ≤ k ∧ k ≤ 9 := by
  have hmask : ∀ k < 16, (0xFC01 : BitVec 16).getLsbD k = !decide (1 ≤ k ∧ k ≤ 9) := by decide
  constructor
  · intro h k hk
    have hlt : k < 16 := BitVec.lt_of_getLsbD hk
    have hbit : (flog &&& 0xFC01).getLsbD k = false := h ▸ BitVec.getLsbD_zero
    rw [BitVec.getLsbD_and, hk, hmask k hlt] at hbit
    simpa using hbit
  · intro h
    refine BitVec.eq_of_getLsbD_eq fun k hk => ?_
    have hset := h k
    rw [BitVec.getLsbD_and, hmask k hk, BitVec.ofNat_eq_ofNat, BitVec.getLsbD_zero]
    cases hf : flog.getLsbD k with
    | false => rfl
    | true => simp [hset hf]

theorem writesStatus.flog_sticky {s t : State} (h : writesStatus s t) {k : Nat} (hk : s.flog.getLsbD k = true) :
    t.flog.getLsbD k = true := by
  obtain ⟨-, -, hf, -⟩ | ⟨-, -, ⟨-, hf, -⟩ | ⟨info, -, -, -, hf, -⟩⟩ := h
  · rwa [hf]
  · rwa [hf]
  · rw [hf, hk, Bool.true_or]

theorem writesStatus.unusedFlog {s t : State} (h : writesStatus s t) (hs : s.flog &&& 0xFC01 = 0) :
    t.flog &&& 0xFC01 = 0 := by
  obtain ⟨-, -, hf, -⟩ | ⟨-, -, ⟨-, hf, -⟩ | ⟨info, -, hlow, hhigh, hf, -⟩⟩ := h
  · rwa [hf]
  · rwa [hf]
  · rw [unusedFlog_iff] at hs ⊢
    intro k hk
    obtain hold | hnew : s.flog.getLsbD k = true ∨ k = info.code.toNat := by simpa [hf] using hk
    · exact hs k hold
    · exact hnew ▸ ⟨hlow, hhigh⟩

theorem step_of_resetAsserted {s : State} (hr : resetAsserted s = true) :
    step s = .next (vrmReset (sampleReset s)) := by
  rw [step_eq, hr, if_pos rfl]

/-- Settles O48: from the three ways a step writes the status, and the values after reset. -/
theorem faultLogIsSticky : Obligations.FaultLogIsSticky := by
  refine ⟨rfl, fun s t h => ?_⟩
  cases hr : resetAsserted s with
  | true =>
    cases next_inj ((step_of_resetAsserted hr).symm.trans h)
    exact ⟨nofun, nofun, fun _ => rfl, fun _ => BitVec.zero_and⟩
  | false =>
    have hw : writesStatus s t := completionWritesStatus s t hr h
    refine ⟨fun _ hcount hfault => ?_, fun _ _ => hw.flog_sticky, nofun, hw.unusedFlog⟩
    obtain ⟨hsame, -⟩ | ⟨-, -, ⟨hok, -⟩ | ⟨info, hstat, -, -, hf, -⟩⟩ := hw
    · omega
    · exact absurd hok hfault
    · exact hstat ▸ hf

/-! ### The snapshot, the parameters and the time input -/

/-- Settles O49: what a body does after the snapshot was taken or dropped leaves it. -/
theorem snapshotLifetime : Obligations.SnapshotLifetime := by
  intro s t hr h
  obtain h | ⟨hst, c, reg, v, hc, htakes, hdata, h⟩ | ⟨hidle, ⟨c, i, hc, hdec, hdrops⟩, h⟩ := step_advances hr h
  · exact .inl ⟨h.snapV, h.snapR, h.snapD⟩
  · exact .inr (.inl ⟨hst, h.snapV, c, reg, v, hc, h.snapR, h.snapD, hdata, htakes⟩)
  · refine .inr (.inr ⟨h.snapV, h.snapR, h.snapD, hidle, c, hc, ?_⟩)
    obtain rfl | ⟨reg, hreg, rfl | ⟨fld, rfl⟩⟩ := hdrops
    · exact .inl hdec
    · exact .inr ⟨reg, hreg, .inl hdec⟩
    · exact .inr ⟨reg, hreg, .inr ⟨fld, hdec⟩⟩

theorem step_par {s t : State} (h : step s = .next t) : t.par = s.par := by
  cases hr : resetAsserted s with
  | true => cases next_inj ((step_of_resetAsserted hr).symm.trans h); rfl
  | false =>
    obtain h | ⟨-, c, reg, v, -, -, -, h⟩ | ⟨-, -, h⟩ := step_advances hr h
    all_goals exact h.par

theorem step_time {s t : State} (h : step s = .next t) : timeNotBefore s.env.lastNow t.env.lastNow := by
  cases hr : resetAsserted s with
  | true => cases next_inj ((step_of_resetAsserted hr).symm.trans h); exact timeNotBefore_refl _
  | false =>
    obtain h | ⟨-, c, reg, v, -, -, -, h⟩ | ⟨-, -, h⟩ := step_advances hr h
    all_goals exact h.time

/-- Settles O50. -/
theorem timeAndParametersNeverGoBack : Obligations.TimeAndParametersNeverGoBack :=
  fun _ _ h => ⟨step_par h, step_time h⟩

/-! ### Reset -/

/-- Settles O32. -/
theorem resetValues : Obligations.ResetValues := by
  unfold Obligations.ResetValues
  exact ⟨rfl, rfl, rfl, rfl, rfl, rfl, rfl, rfl, rfl, rfl, rfl, rfl, rfl, rfl, rfl, rfl, rfl, rfl, rfl, rfl, rfl⟩

/-- Settles O33. -/
theorem resetInputRestoresResetValues : Obligations.ResetInputRestoresResetValues := by
  intro s pins hpins
  have hr : resetAsserted s = true := by simp only [resetAsserted, hpins]
  have hsample : sampleReset s = { s with env := { s.env with resetPin := pins } } := by
    simp only [sampleReset, hpins, List.tail_cons]
  rw [step_of_resetAsserted hr, hsample]
  rfl

end Sys2Proof.Machine
end

section
/-! SUPPORT. The machine never stops (MachineNeverStops). The part of consistency that a step must read to go on is
`State.Fits`; each command's body, each return and each bus event reaches a state that fits (`Reaches`). What is left of
consistency, CFG_OK and the status latches, follows from `step_advances`. -/

namespace Sys2Proof.Machine

open Sys2Proof.Config (Field Register)

/-! ### Fitting states -/

/-- Sequencer, channel, polls and snapshot fit each other: what a step reads of a consistent state. -/
structure State.Fits (s : State) : Prop where
  sequencer : sequencerConsistent s
  polls : pollsConsistent s
  snapshot : snapshotConsistent s

/-- The result is a next state, and it fits. -/
def Reaches (r : Result) : Prop := ∃ t, r = .next t ∧ t.Fits

theorem State.Fits.reaches {t : State} (h : t.Fits) : Reaches (.next t) := ⟨t, rfl, h⟩

theorem State.Fits.withEnv {s : State} (h : s.Fits) (env : Env) : { s with env }.Fits :=
  ⟨h.sequencer, h.polls, h.snapshot⟩

theorem State.Fits.now {s : State} (h : s.Fits) : (now s).2.Fits := by
  rw [(now_state s).1]
  exact h.withEnv _

theorem State.Fits.sensorAnswer {s : State} (h : s.Fits) (p : Config.Preg) : (sensorAnswer p s).2.Fits := by
  rw [(sensorAnswer_state p s).1]
  exact h.withEnv _

theorem pollsConsistent_of_zero {s : State} (h : s.chPolls = 0) : pollsConsistent s :=
  ⟨fun _ => h, fun _ _ => by omega⟩

theorem sequencerConsistent_run {s : State} (h : s.seqSt = .run) : sequencerConsistent s ↔ channelConsistent s := by
  unfold sequencerConsistent
  rw [h]

theorem reaches_running {t : State} (hrun : t.seqSt = .run) (hch : channelConsistent t) (hp : pollsConsistent t)
    (h : snapshotConsistent t) : Reaches (.next t) :=
  State.Fits.reaches ⟨(sequencerConsistent_run hrun).mpr hch, hp, h⟩

/-- Nothing is asked of a snapshot that is not held. -/
theorem snapshotConsistent_of_dropped {s : State} (h : s.snapV = false) : snapshotConsistent s :=
  fun hv => nomatch h.symm.trans hv

theorem snapshotConsistent_dropSnapshotOf {s : State} (reg : BitVec 3) (h : snapshotConsistent s) :
    snapshotConsistent (dropSnapshotOf reg s) := by
  obtain ⟨-, -, hd⟩ | ⟨-, hd⟩ := dropSnapshotOf_cases reg s
  · exact snapshotConsistent_of_dropped (by rw [hd])
  · rwa [hd]

/-- A snapshot of as many bytes as the register has is a value of its width. -/
theorem snapshotConsistent_takeSnapshot {s : State} {reg : BitVec 3} {r : Register} {v : Raw}
    (hr : lookupRegister s.par.masks reg = .ok r) (hv : v.toNat < 2 ^ (8 * (registerLen r).toNat)) :
    snapshotConsistent (takeSnapshot reg v s) := by
  obtain ⟨hwidth, -, -, -, hlen⟩ := map_registers (lookupRegister_mem hr)
  exact fun _ => ⟨reg, v, r, rfl, rfl, hr, by rwa [hwidth, ← hlen]⟩

theorem fits_raise {s : State} (info : FaultInfo) (h : snapshotConsistent s) : (raise info s).Fits :=
  ⟨rfl, pollsConsistent_of_zero rfl, h⟩

theorem reaches_raised {s : State} (info : FaultInfo) (h : snapshotConsistent s) : Reaches (raised info s) :=
  (fits_raise info h).reaches

theorem reaches_withLatch {α : Type} {l : Latch α} {a : α} {name : LatchName} {k : α → Result} (hl : l = .val a)
    (hk : Reaches (k a)) : Reaches (withLatch l name k) := by
  rwa [hl, withLatch_val]

theorem reaches_withRegister {reg : BitVec 3} {s : State} {k : Register → Result} (h : snapshotConsistent s)
    (hk : ∀ r, lookupRegister s.par.masks reg = .ok r → Reaches (k r)) : Reaches (withRegister reg s k) := by
  unfold withRegister
  cases hl : lookupRegister s.par.masks reg with
  | error info => exact reaches_raised info h
  | ok r => exact hk r hl

theorem reaches_withField {reg fld : BitVec 3} {s : State} {k : Register → Field → Result} (h : snapshotConsistent s)
    (hk : ∀ r f, lookupField s.par.masks reg fld = .ok (r, f) → Reaches (k r f)) : Reaches (withField reg fld s k) := by
  unfold withField
  cases hl : lookupField s.par.masks reg fld with
  | error info => exact reaches_raised info h
  | ok p => exact hk p.1 p.2 hl

/-! ### The accesses of the commands -/

/-- An access of `n` bytes at `addr` that the channel admits (41_channel.md R126). -/
def admitted (addr : Byte) (n : BitVec 5) : Prop :=
  1 ≤ n.toNat ∧ n.toNat ≤ Config.maxLen ∧ addr.toNat + n.toNat ≤ Config.vaddrEnd

theorem admitted_of_lookupRegister {m : Config.FieldMasks} {reg : BitVec 3} {r : Register}
    (h : lookupRegister m reg = .ok r) : admitted r.addr (registerLen r) := by
  obtain ⟨-, hpos, hmax, hend, hlen⟩ := map_registers (lookupRegister_mem h)
  rw [admitted, hlen]
  exact ⟨hpos, hmax, hend⟩

theorem admitted_of_lookupField {m : Config.FieldMasks} {reg fld : BitVec 3} {r : Register} {f : Field}
    (h : lookupField m reg fld = .ok (r, f)) : admitted r.addr (registerLen r) :=
  admitted_of_lookupRegister (lookupField_register h).1

theorem admitted_control : admitted controlAddr 1 := ⟨by decide, by decide, by decide⟩

theorem admitted_of_readsAt {s : State} {c : Command} {addr : Byte} {n : BitVec 5} (h : readsAt s c addr n) :
    admitted addr n := by
  unfold readsAt at h
  cases hd : decodeCommand c.cmd with
  | error e => rw [hd] at h; exact h.elim
  | ok i =>
    rw [hd] at h
    cases i with
    | vread len a => obtain ⟨rfl, rfl, hr⟩ := h; exact inRange_iff.mp hr
    | rdreg reg => obtain ⟨r, hr, rfl, rfl⟩ := h; exact admitted_of_lookupRegister hr
    | rdfld reg fld => obtain ⟨r, f, hf, rfl, rfl⟩ := h; exact admitted_of_lookupField hf
    | wrfld reg fld => obtain ⟨r, f, hf, rfl, rfl, -⟩ := h; exact admitted_of_lookupField hf
    | waitrdy => obtain ⟨rfl, rfl, -⟩ := h; exact admitted_control
    | sreset => obtain ⟨rfl, rfl⟩ := h; exact admitted_control
    | nop | vwrite | wrreg | fdec | fdecr | fenc | fins | busRdStatus | busSelW | busSelR | busWrData | busRdData =>
      exact h.elim

theorem admitted_of_writesAt {s : State} {c : Command} {addr : Byte} {n : BitVec 5} (h : writesAt s c addr n) :
    admitted addr n := by
  unfold writesAt at h
  cases hd : decodeCommand c.cmd with
  | error e => rw [hd] at h; exact h.elim
  | ok i =>
    rw [hd] at h
    cases i with
    | vwrite len a => obtain ⟨rfl, rfl, hr⟩ := h; exact inRange_iff.mp hr
    | wrreg reg => obtain ⟨r, hr, rfl, rfl, -⟩ := h; exact admitted_of_lookupRegister hr
    | wrfld reg fld => obtain ⟨r, f, hf, rfl, rfl, -⟩ := h; exact admitted_of_lookupField hf
    | sreset => obtain ⟨rfl, rfl⟩ := h; exact admitted_control
    | nop | vread | rdreg | fdec | fdecr | fenc | fins | rdfld | waitrdy | busRdStatus | busSelW | busSelR | busWrData
    | busRdData => exact h.elim

/-! ### A command's body -/

/-- The body of the command `c` runs, with the channel idle: it was just accepted, or a channel procedure returned to
it. -/
structure InBody (c : Command) (s : State) : Prop where
  running : s.seqSt = .run
  command : s.seqCmd = .val c
  channel : s.chSt = .idle
  polls : s.chPolls = 0
  snapshot : snapshotConsistent s

theorem InBody.now {c : Command} {s : State} (h : InBody c s) : InBody c (now s).2 := by
  rw [(now_state s).1]
  exact ⟨h.running, h.command, h.channel, h.polls, h.snapshot⟩

theorem InBody.dropSnapshot {c : Command} {s : State} (h : InBody c s) : InBody c { s with snapV := false } :=
  ⟨h.running, h.command, h.channel, h.polls, nofun⟩

theorem InBody.dropSnapshotOf {c : Command} {s : State} (h : InBody c s) (reg : BitVec 3) :
    InBody c (dropSnapshotOf reg s) where
  running := (dropSnapshotOf_seqSt reg s).trans h.running
  command := (dropSnapshotOf_seqCmd reg s).trans h.command
  channel := (dropSnapshotOf_chSt reg s).trans h.channel
  polls := (dropSnapshotOf_chPolls reg s).trans h.polls
  snapshot := snapshotConsistent_dropSnapshotOf reg h.snapshot

theorem InBody.takeSnapshot {c : Command} {s : State} {reg : BitVec 3} {r : Register} {v : Raw} (h : InBody c s)
    (hr : lookupRegister s.par.masks reg = .ok r) (hv : v.toNat < 2 ^ (8 * (registerLen r).toNat)) :
    InBody c (takeSnapshot reg v s) :=
  ⟨h.running, h.command, h.channel, h.polls, snapshotConsistent_takeSnapshot hr hv⟩

/-- A body may complete after writing the result latches, whatever SEQ_ST was. -/
theorem reaches_finishOk {s : State} {rdata : Latch Raw} {rval : Sem} {seqSt : SeqSt} (hch : s.chSt = .idle)
    (hp : s.chPolls = 0) (h : snapshotConsistent s) : Reaches (.next (finishOk { s with rdata, rval, seqSt })) :=
  State.Fits.reaches ⟨hch, pollsConsistent_of_zero hp, h⟩

theorem InBody.reaches_finishOk {c : Command} {s : State} {rdata : Latch Raw} {rval : Sem} {seqSt : SeqSt}
    (h : InBody c s) : Reaches (.next (finishOk { s with rdata, rval, seqSt })) :=
  Machine.reaches_finishOk h.channel h.polls h.snapshot

theorem InBody.reaches_startRead {c : Command} {s : State} {addr : Byte} {n : BitVec 5} (h : InBody c s)
    (hr : readsAt s c addr n) : Reaches (.next (startRead addr n s)) := by
  obtain ⟨hpos, hmax, hend⟩ := admitted_of_readsAt hr
  refine reaches_running h.running ?_ (pollsConsistent_of_zero rfl) h.snapshot
  exact ⟨c, addr, n, 0, h.command, rfl, rfl, rfl, hpos, hmax, hend, .inl ⟨rfl, hr, 0, rfl, Nat.two_pow_pos _⟩⟩

theorem InBody.reaches_startWrite {c : Command} {s : State} {addr : Byte} {n : BitVec 5} {v : Nat} (h : InBody c s)
    (hw : writesAt s c addr n) : Reaches (.next (startWrite addr n v s)) := by
  obtain ⟨hpos, hmax, hend⟩ := admitted_of_writesAt hw
  refine reaches_running h.running ?_ (pollsConsistent_of_zero rfl) h.snapshot
  refine ⟨c, addr, n, 0, h.command, rfl, rfl, rfl, hpos, hmax, hend, .inr ⟨rfl, hw, _, rfl, ?_⟩⟩
  rw [zext192, BitVec.toNat_ofNat]
  exact (Nat.mod_le _ _).trans_lt (Nat.mod_lt _ (Nat.two_pow_pos _))

theorem reaches_startWaitPoll {s : State} {c : Command} (hc : s.seqCmd = .val c)
    (hd : decodeCommand c.cmd = .ok .waitrdy) (hv : (numericOperand c.opv).isSome = true) (ht : s.seqT0 ≠ .undef)
    (hch : s.chSt = .idle) (hp : s.chPolls = 0) (h : snapshotConsistent s) : Reaches (.next (startWaitPoll s)) := by
  have hb : InBody c { s with seqSt := .run } := ⟨rfl, hc, hch, hp, h⟩
  refine hb.reaches_startRead ?_
  simp only [readsAt, hd]
  exact ⟨trivial, trivial, hv, ht⟩

/-- Every command that is accepted goes on. -/
theorem InBody.reaches_exec {c : Command} {s : State} {i : Instr} (h : InBody c s)
    (hd : decodeCommand c.cmd = .ok i) : Reaches (exec i s) := by
  cases i with
  | nop => exact h.reaches_finishOk
  | vread len addr =>
    change Reaches (execVread len addr s)
    unfold execVread
    split
    next hr => exact h.reaches_startRead (by simp only [readsAt, hd]; exact ⟨trivial, trivial, hr⟩)
    next => exact reaches_raised _ h.snapshot
  | vwrite len addr =>
    change Reaches (execVwrite len addr s)
    unfold execVwrite
    split
    next hr =>
      refine reaches_withLatch h.command ?_
      exact h.reaches_startWrite (by simp only [writesAt, hd]; exact ⟨trivial, trivial, hr⟩)
    next => exact reaches_raised _ h.snapshot
  | rdreg reg =>
    refine reaches_withRegister h.snapshot fun r hr => h.reaches_startRead ?_
    simp only [readsAt, hd]
    exact ⟨r, hr, rfl, rfl⟩
  | wrreg reg =>
    refine reaches_withRegister h.snapshot fun r hr => ?_
    cases ha : r.access with
    | ro => exact reaches_raised _ h.snapshot
    | rw =>
      refine reaches_withLatch h.command ?_
      refine (h.dropSnapshotOf reg).reaches_startWrite ?_
      simp only [writesAt, hd, dropSnapshotOf_par]
      exact ⟨r, hr, rfl, rfl, ha⟩
  | fdec reg fld =>
    refine reaches_withField h.snapshot fun r f _ => ?_
    split
    next hs =>
      obtain ⟨-, d, -, -, hsnap, -⟩ := h.snapshot hs.1
      refine reaches_withLatch hsnap ?_
      split
      · exact h.reaches_finishOk
      · exact reaches_raised _ h.snapshot
    next => exact reaches_raised _ h.snapshot
  | fdecr reg fld | fenc reg fld | fins reg fld =>
    refine reaches_withField h.snapshot fun r f _ => ?_
    refine reaches_withLatch h.command ?_
    split
    · exact h.reaches_finishOk
    · exact reaches_raised _ h.snapshot
  | rdfld reg fld =>
    refine reaches_withField h.snapshot fun r f hf => h.reaches_startRead ?_
    simp only [readsAt, hd]
    exact ⟨r, f, hf, rfl, rfl⟩
  | wrfld reg fld =>
    refine reaches_withField h.snapshot fun r f hf => ?_
    cases ha : r.access with
    | ro => exact reaches_raised _ h.snapshot
    | rw =>
      refine reaches_withLatch h.command ?_
      cases he : fieldEncode f r.width c.opv with
      | none => exact reaches_raised _ h.snapshot
      | some bits =>
        refine (h.dropSnapshotOf reg).reaches_startRead ?_
        simp only [readsAt, hd, dropSnapshotOf_par]
        exact ⟨r, f, hf, rfl, rfl, ha, by rw [he]; rfl⟩
  | waitrdy =>
    change Reaches (execWaitrdy s)
    unfold execWaitrdy
    refine reaches_withLatch h.command ?_
    cases hn : numericOperand c.opv with
    | none => exact reaches_raised _ h.snapshot
    | some x =>
      exact reaches_startWaitPoll h.now.command hd (by rw [hn]; rfl) nofun h.now.channel h.now.polls h.now.snapshot
  | sreset =>
    change Reaches (execSreset s)
    rw [execSreset_eq]
    refine h.dropSnapshot.reaches_startRead ?_
    simp only [readsAt, hd]
    exact ⟨trivial, trivial⟩
  | busRdStatus | busSelW | busSelR | busWrData | busRdData => cases decodeCommand_busEvent hd

/-! ### The returns -/

theorem lookupRegister_control (m : Config.FieldMasks) :
    lookupRegister m controlIndex = .ok (Config.controlReg m) := rfl

theorem registerLen_control (m : Config.FieldMasks) : registerLen (Config.controlReg m) = 1 := by
  simp [registerLen, Register.bytes, Config.controlReg]

/-- MemRead returns to the command that made it, and that goes on. -/
theorem InBody.reaches_readReturn {c : Command} {s : State} {addr : Byte} {n : BitVec 5} {v : Raw} (h : InBody c s)
    (hr : readsAt s c addr n) (hv : v.toNat < 2 ^ (8 * n.toNat)) : Reaches (readReturn v s) := by
  unfold readsAt at hr
  unfold readReturn
  refine reaches_withLatch h.command ?_
  cases hd : decodeCommand c.cmd with
  | error e => rw [hd] at hr; exact hr.elim
  | ok i =>
    rw [hd] at hr
    cases i with
    | vread len a => exact h.reaches_finishOk
    | rdreg reg =>
      obtain ⟨r, hreg, -, rfl⟩ := hr
      exact (h.takeSnapshot hreg hv).reaches_finishOk
    | rdfld reg fld =>
      obtain ⟨r, f, hf, -, rfl⟩ := hr
      have ht := h.takeSnapshot (lookupField_register hf).1 hv
      refine reaches_withField h.snapshot fun r f _ => ?_
      split
      · exact ht.reaches_finishOk
      · exact reaches_raised _ ht.snapshot
    | wrfld reg fld =>
      obtain ⟨r, f, hf, -, -, ha, henc⟩ := hr
      refine reaches_withField h.snapshot fun r' f' hf' => ?_
      cases hf.symm.trans hf'
      obtain ⟨bits, hbits⟩ := Option.isSome_iff_exists.mp henc
      rw [hbits]
      refine h.reaches_startWrite ?_
      simp only [writesAt, hd]
      exact ⟨r, f, hf, rfl, rfl, ha⟩
    | waitrdy =>
      obtain ⟨-, rfl, hval, ht0⟩ := hr
      have ht := h.takeSnapshot (lookupRegister_control s.par.masks) (by rwa [registerLen_control])
      change Reaches (waitrdyPolled v s)
      rw [waitrdyPolled_eq]
      split
      · exact ht.reaches_finishOk
      · exact State.Fits.reaches
          ⟨⟨h.channel, c, h.command, hd, hval, ht0⟩, pollsConsistent_of_zero h.polls, ht.snapshot⟩
    | sreset =>
      change Reaches (sresetMerge v s)
      rw [sresetMerge_eq]
      refine h.reaches_startWrite ?_
      simp only [writesAt, hd]
      exact ⟨trivial, trivial⟩
    | nop | vwrite | wrreg | fdec | fdecr | fenc | fins | busRdStatus | busSelW | busSelR | busWrData | busRdData =>
      exact hr.elim

/-- The settle starts with the reading it takes as SEQ_T0 (44_register_ops.md R222). -/
theorem fits_settleStart {t : State} (hst : t.seqSt = .settle) (hch : t.chSt = .idle) (hp : t.chPolls = 0)
    (h : snapshotConsistent t) : { (now t).2 with seqT0 := .val (now t).1 }.Fits := by
  rw [(now_state t).1]
  refine ⟨?_, pollsConsistent_of_zero hp, h⟩
  simp only [sequencerConsistent, hst]
  exact ⟨hch, nofun⟩

/-- MemWrite returns to the command that made it, and that goes on. -/
theorem InBody.reaches_writeReturn {c : Command} {s : State} {addr : Byte} {n : BitVec 5} {v : Raw} (h : InBody c s)
    (hw : writesAt s c addr n) : Reaches (writeReturn v s) := by
  unfold writesAt at hw
  unfold writeReturn
  refine reaches_withLatch h.command ?_
  cases hd : decodeCommand c.cmd with
  | error e => rw [hd] at hw; exact hw.elim
  | ok i =>
    rw [hd] at hw
    cases i with
    | vwrite len a => exact h.reaches_finishOk
    | wrreg reg => exact h.reaches_finishOk
    | wrfld reg fld => exact h.reaches_finishOk
    | sreset =>
      exact (fits_settleStart (t := { s with rdata := .val v, seqSt := .settle }) rfl h.channel h.polls
        h.snapshot).reaches
    | nop | vread | rdreg | fdec | fdecr | fenc | fins | rdfld | waitrdy | busRdStatus | busSelW | busSelR | busWrData
    | busRdData => exact hw.elim

/-! ### The channel's events -/

theorem isPoll_pollSatisfied {st : ChSt} (h : isPoll st = true) (b : Byte) : ∃ ok, pollSatisfied st b = some ok := by
  cases st with
  | wPoll1 | wPoll2 | rPoll1 | rPoll2 => exact ⟨_, rfl⟩
  | idle | wSel | wData | rSel | rRead => cases h

theorem afterPoll_phase (st : ChSt) :
    isReadPhase (afterPoll st) = isReadPhase st ∧ isWritePhase (afterPoll st) = isWritePhase st := by
  cases st <;> exact ⟨rfl, rfl⟩

/-- A step of the handshake within one byte keeps what the channel holds. -/
theorem channelConsistent_moveTo {s : State} {st : ChSt} {polls : Nat} {trace : List Config.BusEvent}
    (h : channelConsistent s) (hr : isReadPhase st = isReadPhase s.chSt) (hw : isWritePhase st = isWritePhase s.chSt) :
    channelConsistent { s with chSt := st, chPolls := polls, trace } := by
  obtain ⟨c, addr, n, k, hc, ha, hn, hk, hlt, hmax, hend, hphase⟩ := h
  refine ⟨c, addr, n, k, hc, ha, hn, hk, hlt, hmax, hend, ?_⟩
  rwa [← hr, ← hw] at hphase

theorem reaches_moveTo {s : State} {st : ChSt} {trace : List Config.BusEvent} (hrun : s.seqSt = .run)
    (h : s.Fits) (hr : isReadPhase st = isReadPhase s.chSt) (hw : isWritePhase st = isWritePhase s.chSt) :
    Reaches (.next { s with chSt := st, chPolls := 0, trace }) := by
  have hchannel := (sequencerConsistent_run hrun).mp h.sequencer
  exact reaches_running hrun (channelConsistent_moveTo hchannel hr hw) (pollsConsistent_of_zero rfl) h.snapshot

theorem reaches_execBusRdStatus {s : State} (hrun : s.seqSt = .run) (h : s.Fits) (hpoll : isPoll s.chSt = true)
    (b : Byte) : Reaches (execBusRdStatus b s) := by
  have hchannel := (sequencerConsistent_run hrun).mp h.sequencer
  obtain ⟨ok, hok⟩ := isPoll_pollSatisfied hpoll b
  unfold execBusRdStatus
  simp only [hok]
  cases ok with
  | true => exact reaches_moveTo (s := s) hrun h (afterPoll_phase _).1 (afterPoll_phase _).2
  | false =>
    obtain ⟨c, addr, n, k, -, ha, -, hk, -⟩ := id hchannel
    dsimp only
    split
    next => exact reaches_withLatch ha (reaches_withLatch hk (reaches_raised _ h.snapshot))
    next hbound =>
      refine reaches_running hrun (channelConsistent_moveTo hchannel rfl rfl)
        ⟨fun hno => ?_, fun l hl => ?_⟩ h.snapshot
      · cases hpoll.symm.trans hno
      · have hlim : s.par.pollLimit = .bound l := hl
        simp only [hlim, pollBoundReached, decide_eq_true_eq] at hbound
        dsimp only
        omega

/-- A byte by its top bit and the seven bits below it. -/
theorem byte_eq_append (x : Byte) : x = x.extractLsb' 7 1 ++ x.setWidth 7 := by
  refine BitVec.eq_of_getLsbD_eq fun k hk => ?_
  simp only [BitVec.getLsbD_append, BitVec.getLsbD_setWidth, BitVec.getLsbD_extractLsb']
  split
  next hlow => simp [hlow]
  next hhigh =>
    obtain rfl : k = 7 := by omega
    simp

theorem writeSelection_eq (addr : Byte) : writeSelection addr = 1#1 ++ (writeSelection addr).setWidth 7 := by
  have htop : (writeSelection addr).extractLsb' 7 1 = 1#1 := by
    refine BitVec.eq_of_getLsbD_eq fun k hk => ?_
    obtain rfl : k = 0 := by omega
    simp [writeSelection, Config.ptrWriteFlag]
  conv_lhs => rw [byte_eq_append (writeSelection addr), htop]

theorem readSelection_eq {addr : Byte} {k : BitVec 5} (h : addr.toNat + k.toNat < 128) :
    readSelection addr k = 0#1 ++ (readSelection addr k).setWidth 7 := by
  have hval : (readSelection addr k).toNat = addr.toNat + k.toNat := by
    simp only [readSelection, BitVec.toNat_add, BitVec.toNat_setWidth]
    omega
  have htop : (readSelection addr k).extractLsb' 7 1 = 0#1 := by
    refine BitVec.eq_of_toNat_eq ?_
    simp only [BitVec.extractLsb'_toNat, hval, BitVec.toNat_ofNat, Nat.shiftRight_eq_div_pow]
    omega
  conv_lhs => rw [byte_eq_append (readSelection addr k), htop]

/-- The next byte's offset. -/
theorem toNat_offset_succ {k n : BitVec 5} (h : k.toNat + 1 < n.toNat) : (k + 1).toNat = k.toNat + 1 := by
  have hone : (1 : BitVec 5).toNat = 1 := rfl
  rw [BitVec.toNat_add, hone]
  omega

theorem toNat_shiftInByte_lt {acc : Raw} {k : Nat} (d : Byte) (h : acc.toNat < 2 ^ (8 * k)) :
    (shiftInByte acc d).toNat < 2 ^ (8 * (k + 1)) := by
  have hpow : 2 ^ (8 * (k + 1)) = 2 ^ (8 * k) * 2 ^ 8 := by rw [← Nat.pow_add, Nat.mul_succ]
  rw [shiftInByte, BitVec.toNat_or]
  refine Nat.or_lt_two_pow ?_ ?_
  · rw [BitVec.toNat_shiftLeft, Nat.shiftLeft_eq, hpow]
    exact (Nat.mod_le _ _).trans_lt (Nat.mul_lt_mul_of_pos_right h (by decide))
  · rw [BitVec.toNat_setWidth, hpow]
    exact ((Nat.mod_le _ _).trans_lt d.isLt).trans_le (Nat.le_mul_of_pos_left _ (Nat.two_pow_pos _))

theorem reaches_execBusWrData {s : State} {c : Command} {addr : Byte} {n k : BitVec 5} {out : Raw}
    (hrun : s.seqSt = .run) (hsnap : snapshotConsistent s) (hst : s.chSt = .wData) (hc : s.seqCmd = .val c)
    (ha : s.chAddr = .val addr) (hn : s.chN = .val n) (hk : s.chI = .val k) (hout : s.chOut = .val out)
    (hlt : k.toNat < n.toNat) (hw : writesAt s c addr n) (hval : out.toNat < 2 ^ (8 * n.toNat)) :
    Reaches (execBusWrData (byteAt out n.toNat k.toNat) s) := by
  obtain ⟨-, hmax, hend⟩ := admitted_of_writesAt hw
  unfold execBusWrData
  rw [if_pos hst]
  refine reaches_withLatch hout (reaches_withLatch hn (reaches_withLatch hk ?_))
  rw [if_pos ⟨hlt, rfl⟩]
  split
  next hmore =>
    refine reaches_running hrun ?_ (pollsConsistent_of_zero rfl) hsnap
    refine ⟨c, addr, n, k + 1, hc, ha, hn, rfl, ?_, hmax, hend, .inr ⟨rfl, hw, out, hout, hval⟩⟩
    rwa [toNat_offset_succ hmore]
  next =>
    have hb : InBody c (enter .idle (emit ⟨.write, .writePtr, byteAt out n.toNat k.toNat⟩ s)) :=
      ⟨hrun, hc, rfl, rfl, hsnap⟩
    exact hb.reaches_writeReturn hw

theorem reaches_execBusRdData {s : State} {c : Command} {addr : Byte} {n k : BitVec 5} {acc : Raw}
    (hrun : s.seqSt = .run) (hsnap : snapshotConsistent s) (hst : s.chSt = .rRead) (hc : s.seqCmd = .val c)
    (ha : s.chAddr = .val addr) (hn : s.chN = .val n) (hk : s.chI = .val k) (hacc : s.chAcc = .val acc)
    (hlt : k.toNat < n.toNat) (hr : readsAt s c addr n) (hval : acc.toNat < 2 ^ (8 * k.toNat)) (d : Byte) :
    Reaches (execBusRdData d s) := by
  obtain ⟨-, hmax, hend⟩ := admitted_of_readsAt hr
  have hval' := toNat_shiftInByte_lt d hval
  unfold execBusRdData
  rw [if_pos hst]
  refine reaches_withLatch hacc (reaches_withLatch hn (reaches_withLatch hk ?_))
  rw [if_pos hlt]
  dsimp only
  split
  next hmore =>
    refine reaches_running hrun ?_ (pollsConsistent_of_zero rfl) hsnap
    refine ⟨c, addr, n, k + 1, hc, ha, hn, rfl, ?_, hmax, hend, .inl ⟨rfl, hr, _, rfl, ?_⟩⟩
    · rwa [toNat_offset_succ hmore]
    · rwa [toNat_offset_succ hmore]
  next hlast =>
    have hlen : k.toNat + 1 = n.toNat := by omega
    have hb : InBody c
        (enter .idle { emit ⟨.read, .readData, d⟩ s with chAcc := .val (shiftInByte acc d) }) :=
      ⟨hrun, hc, rfl, rfl, hsnap⟩
    exact hb.reaches_readReturn hr (hlen ▸ hval')

theorem reaches_execBusSelW {s : State} {addr : Byte} (hrun : s.seqSt = .run) (h : s.Fits) (hst : s.chSt = .wSel)
    (ha : s.chAddr = .val addr) : Reaches (execBusSelW ((writeSelection addr).setWidth 7) s) := by
  unfold execBusSelW
  rw [if_pos hst]
  refine reaches_withLatch ha ?_
  rw [if_pos (writeSelection_eq addr)]
  exact reaches_moveTo (s := s) hrun h (hst ▸ rfl) (hst ▸ rfl)

theorem reaches_execBusSelR {s : State} {addr : Byte} {k : BitVec 5} (hrun : s.seqSt = .run) (h : s.Fits)
    (hst : s.chSt = .rSel) (ha : s.chAddr = .val addr) (hk : s.chI = .val k) (hlt : addr.toNat + k.toNat < 128) :
    Reaches (execBusSelR ((readSelection addr k).setWidth 7) s) := by
  unfold execBusSelR
  rw [if_pos hst]
  refine reaches_withLatch ha (reaches_withLatch hk ?_)
  rw [if_pos (readSelection_eq hlt)]
  exact reaches_moveTo (s := s) hrun h (hst ▸ rfl) (hst ▸ rfl)

/-- A running channel issues its next event, and that is answered. -/
theorem reaches_channelEvent {s : State} (hrun : s.seqSt = .run) (h : s.Fits) :
    ∃ i u, channelEvent s = .issue i u ∧ Reaches (exec i u) := by
  have hchannel := (sequencerConsistent_run hrun).mp h.sequencer
  have hpoll (hp : isPoll s.chSt = true) :
      Reaches (execBusRdStatus (sensorAnswer .status s).1 (sensorAnswer .status s).2) :=
    reaches_execBusRdStatus ((sensorAnswer_seqSt .status s).trans hrun) (h.sensorAnswer .status)
      ((sensorAnswer_chSt .status s).symm ▸ hp) _
  obtain ⟨c, addr, n, k, hc, ha, hn, hk, hlt, hmax, hend, hphase⟩ := hchannel
  unfold channelEvent
  cases hst : s.chSt with
  | idle => rw [hst] at hphase; obtain ⟨hr, -⟩ | ⟨hw, -⟩ := hphase <;> contradiction
  | wPoll1 | wPoll2 | rPoll1 | rPoll2 => exact ⟨_, _, rfl, hpoll (hst ▸ rfl)⟩
  | wSel => simp only [ha]; exact ⟨_, _, rfl, reaches_execBusSelW hrun h hst ha⟩
  | rSel =>
    simp only [ha, hk]
    exact ⟨_, _, rfl, reaches_execBusSelR hrun h hst ha hk (by unfold Config.vaddrEnd at hend; omega)⟩
  | wData =>
    rw [hst] at hphase
    obtain ⟨hr, -⟩ | ⟨-, hw, out, hout, hval⟩ := hphase
    · cases hr
    · simp only [hout, hn, hk]
      exact ⟨_, _, rfl, reaches_execBusWrData hrun h.snapshot hst hc ha hn hk hout hlt hw hval⟩
  | rRead =>
    rw [hst] at hphase
    obtain ⟨-, hr, acc, hacc, hval⟩ | ⟨hw, -⟩ := hphase
    · refine ⟨_, _, rfl, ?_⟩
      change Reaches (execBusRdData (sensorAnswer .readData s).1 (sensorAnswer .readData s).2)
      rw [(sensorAnswer_state .readData s).1]
      generalize (sensorAnswer .readData s).2.env = env
      exact reaches_execBusRdData (s := { s with env }) hrun h.snapshot hst hc ha hn hk hacc hlt hr hval _
    · cases hw

/-! ### Every step -/

theorem reaches_waitTick {s : State} (hwait : s.seqSt = .wait) (h : s.Fits) : Reaches (waitTick s) := by
  have hseq := h.sequencer
  simp only [sequencerConsistent, hwait] at hseq
  obtain ⟨hch, c, hc, hd, hval, ht⟩ := hseq
  have hp : s.chPolls = 0 := h.polls.1 (hch ▸ rfl)
  have hnow := h.now
  obtain ⟨limit, hlimit⟩ := Option.isSome_iff_exists.mp hval
  unfold waitTick
  refine reaches_withLatch hc ?_
  cases ht0 : s.seqT0 with
  | undef => exact absurd ht0 ht
  | val t0 =>
    simp only [withLatch_val, hlimit]
    split
    · exact reaches_finishOk ((now_chSt s).trans hch) ((now_chPolls s).trans hp) hnow.snapshot
    · exact reaches_startWaitPoll ((now_seqCmd s).trans hc) hd hval ((now_seqT0 s).symm ▸ ht)
        ((now_chSt s).trans hch) ((now_chPolls s).trans hp) hnow.snapshot

theorem reaches_settleTick {s : State} (hsettle : s.seqSt = .settle) (h : s.Fits) : Reaches (settleTick s) := by
  have hseq := h.sequencer
  simp only [sequencerConsistent, hsettle] at hseq
  obtain ⟨hch, ht⟩ := hseq
  have hp : s.chPolls = 0 := h.polls.1 (hch ▸ rfl)
  have hnow := h.now
  unfold settleTick
  cases ht0 : s.seqT0 with
  | undef => exact absurd ht0 ht
  | val t0 =>
    rw [withLatch_val]
    split
    · exact reaches_finishOk ((now_chSt s).trans hch) ((now_chPolls s).trans hp) hnow.snapshot
    · exact hnow.reaches

/-- The outcome of what a step is to do. -/
def Agenda.outcome : Agenda → Result
  | .issue i s => exec i s
  | .settled r => r

theorem step_eq_outcome (s : State) : step s = (agenda s).outcome := by
  unfold step
  cases agenda s <;> rfl

theorem reaches_accept {s : State} (hidle : s.seqSt = .idle) (hcfg : s.cfgOk = (configCheck s.par.masks).isNone)
    (h : s.Fits) (c : Command) (rest : List Command) : Reaches (accept c rest s).outcome := by
  have hch : s.chSt = .idle := by simpa only [sequencerConsistent, hidle] using h.sequencer
  have hb : InBody c (acceptCommand c rest s) := ⟨rfl, rfl, hch, h.polls.1 (hch ▸ rfl), h.snapshot⟩
  obtain ⟨hno, hpass, -⟩ | ⟨-, reg, fld, -, ha⟩ | ⟨-, -, ha⟩ | ⟨-, i, hd, ha⟩ := accept_cases c rest s
  · rw [hno, hpass] at hcfg
    cases hcfg
  · exact ha ▸ reaches_raised _ hb.snapshot
  · exact ha ▸ reaches_raised _ hb.snapshot
  · exact ha ▸ hb.reaches_exec hd

theorem reaches_workAgenda {s : State} (hcfg : s.cfgOk = (configCheck s.par.masks).isNone) (h : s.Fits) :
    Reaches (workAgenda s).outcome := by
  unfold workAgenda
  cases hq : s.seqSt with
  | idle =>
    dsimp only
    unfold idleAgenda
    split
    · exact h.reaches
    · exact reaches_accept hq hcfg h _ _
  | run =>
    obtain ⟨i, u, hi, hreach⟩ := reaches_channelEvent hq h
    dsimp only
    rwa [hi]
  | wait => exact reaches_waitTick hq h
  | settle => exact reaches_settleTick hq h

theorem State.Consistent.fits {s : State} (h : s.Consistent) : s.Fits := ⟨h.sequencer, h.polls, h.snapshot⟩

theorem consistent_resetWith (par : Config.Params) (env : Env) : (State.resetWith par env).Consistent where
  cfg := rfl
  busy := fun hbusy => absurd rfl hbusy
  rstat := Nat.zero_le _
  flog := BitVec.zero_and
  sequencer := rfl
  polls := pollsConsistent_of_zero rfl
  snapshot := snapshotConsistent_of_dropped rfl

/-- Settles O53: in the reset state no command runs and no snapshot is held. -/
theorem resetIsConsistent : Obligations.ResetIsConsistent :=
  ⟨consistent_resetWith _ _, fun _ => consistent_resetWith _ _⟩

theorem reaches_step {s : State} (h : s.Consistent) : Reaches (step s) := by
  rw [step_eq_outcome]
  unfold agenda
  split
  · exact (resetIsConsistent.2 (sampleReset s)).fits.reaches
  · exact reaches_workAgenda (s := sampleReset s) h.cfg (h.fits.withEnv _)

theorem step_cfgOk {s t : State} (hr : resetAsserted s = false) (h : step s = .next t) : t.cfgOk = s.cfgOk := by
  obtain h | ⟨-, c, reg, v, -, -, -, h⟩ | ⟨-, -, h⟩ := step_advances hr h
  all_goals exact h.cfgOk

/-- A step leaves the VRM busy only with CFG_OK 1, or if it was busy (60_exceptions.md R252). -/
theorem step_busy {s t : State} (hr : resetAsserted s = false) (h : step s = .next t) (ht : t.seqSt ≠ .idle) :
    s.cfgOk = true ∨ s.seqSt ≠ .idle := by
  obtain ⟨hr', -⟩ | ⟨-, ⟨hidle, -, rfl⟩ | ⟨-, c, rest, -, ⟨-, reg, fld, -, rfl⟩ | ⟨hcfg, -⟩ | ⟨hcfg, -⟩⟩ | ⟨hrun, -⟩ |
    ⟨hwait, -⟩ | ⟨hsettle, -⟩⟩ := step_next h
  · cases hr.symm.trans hr'
  · exact absurd hidle ht
  · exact absurd rfl ht
  · exact .inl hcfg
  · exact .inl hcfg
  · exact .inr (by rw [hrun]; exact nofun)
  · exact .inr (by rw [hwait]; exact nofun)
  · exact .inr (by rw [hsettle]; exact nofun)

theorem writesStatus.rstat_le {s t : State} (h : writesStatus s t) (hs : s.rstat.toNat ≤ 9) : t.rstat.toNat ≤ 9 := by
  obtain ⟨-, hstat, -⟩ | ⟨-, -, ⟨hstat, -⟩ | ⟨info, hstat, -, hhigh, -⟩⟩ := h
  · rwa [hstat]
  · rw [hstat]
    exact Nat.zero_le _
  · rwa [hstat]

/-- A step from a consistent state that ends in a fitting state ends in a consistent one. -/
theorem step_consistent {s t : State} (h : s.Consistent) (hstep : step s = .next t) (ht : t.Fits) : t.Consistent := by
  cases hr : resetAsserted s with
  | true =>
    cases next_inj ((step_of_resetAsserted hr).symm.trans hstep)
    exact resetIsConsistent.2 _
  | false =>
    have hw : writesStatus s t := completionWritesStatus s t hr hstep
    have hcfg := step_cfgOk hr hstep
    have hbusy : t.seqSt ≠ .idle → t.cfgOk = true :=
      fun hq => hcfg.trans ((step_busy hr hstep hq).elim id h.busy)
    exact ⟨by rw [hcfg, step_par hstep]; exact h.cfg, hbusy, hw.rstat_le h.rstat, hw.unusedFlog h.flog, ht.sequencer,
      ht.polls, ht.snapshot⟩

/-- Settles O52: a consistent state reaches a fitting one (`reaches_step`), which is consistent. -/
theorem machineNeverStops : Obligations.MachineNeverStops := by
  intro s h
  obtain ⟨t, hstep, ht⟩ := reaches_step h
  exact ⟨t, hstep, step_consistent h hstep ht⟩

end Sys2Proof.Machine
end

section
/-! SUPPORT. The statements about the memory accesses: the register reads start, and a whole MemRead or MemWrite. A run
is taken apart along the bus events it issues (`runFor_append`): of one byte, its poll, its selection, its second poll
and its data byte; of a procedure, its bytes one after another. -/

namespace Sys2Proof.Machine

open Sys2Proof.Config (BusEvent PollLimit Field Register)

/-! ### The register reads -/

theorem withRegister_ok {reg : BitVec 3} {s : State} {r : Register} (k : Register → Result)
    (h : lookupRegister s.par.masks reg = .ok r) : withRegister reg s k = k r := by
  rw [withRegister, h]

theorem withField_ok {reg fld : BitVec 3} {s : State} {r : Register} {f : Field} (k : Register → Field → Result)
    (h : lookupField s.par.masks reg fld = .ok (r, f)) : withField reg fld s k = k r f := by
  rw [withField, h]

/-- Settles O19: once the register is found, both bodies are `startRead`. -/
theorem registerReadsStart : Obligations.RegisterReadsStart :=
  fun _ _ _ _ => ⟨fun hr => withRegister_ok _ hr, fun _ hf => withField_ok _ hf⟩

/-! ### Runs -/

theorem run_one (M : Host.Core) (s : M.State) : M.run 1 s = M.step s := by
  rw [Host.Core.run]
  split
  next h => exact h.symm
  next h => exact h.symm
  next h => exact h.symm

theorem run_succ_of_step {M : Host.Core} {k : Nat} {s t : M.State} (h : M.step s = .next t) :
    M.run (k + 1) s = M.run k t := by
  rw [Host.Core.run, h]

/-- A run that goes on goes on at its first step. -/
theorem step_of_run_succ {M : Host.Core} {k : Nat} {s t : M.State} (h : M.run (k + 1) s = .next t) :
    ∃ u, M.step s = .next u ∧ M.run k u = .next t := by
  rw [Host.Core.run] at h
  split at h
  next u hstep => exact ⟨u, hstep, h⟩
  next => cases h
  next => cases h

theorem run_add_of_run {M : Host.Core} {j k : Nat} {s t : M.State} (h : M.run j s = .next t) :
    M.run (j + k) s = M.run k t := by
  induction j generalizing s with
  | zero =>
    cases h
    rw [Nat.zero_add]
  | succ j ih =>
    obtain ⟨u, hstep, hrest⟩ := step_of_run_succ h
    rw [Nat.add_right_comm, run_succ_of_step hstep, ih hrest]

/-- The outcome of as many steps as there are events to issue. -/
def runFor (es : List BusEvent) (s : State) : Result := Host.Core.run core es.length s

theorem runFor_singleton (e : BusEvent) (s : State) : runFor [e] s = step s := run_one core s

theorem runFor_append {es fs : List BusEvent} {s t : State} (h : runFor es s = .next t) :
    runFor (es ++ fs) s = runFor fs t := by
  rw [runFor, List.length_append]
  exact run_add_of_run h

/-- The channel runs and no reset comes: its next step is its next bus event. -/
structure Running (s : State) : Prop where
  pin : s.env.resetPin = []
  seq : s.seqSt = .run

theorem Running.step_eq {s : State} (h : Running s) : step s = (channelEvent s).outcome := by
  have hsample : sampleReset s = s := by
    unfold sampleReset
    rw [h.pin, List.tail_nil, ← h.pin]
  rw [step_eq_outcome, agenda, hsample, workAgenda, h.seq, resetAsserted, h.pin]
  rfl

/-- The channel came to the step `st` of the handshake after the events `es`, with the answers `rest` still to come. -/
def State.after (s : State) (es : List BusEvent) (rest : List Byte) (st : ChSt) : State :=
  { s with env := { s.env with sensorIn := rest }, trace := s.trace ++ es, chSt := st, chPolls := 0 }

theorem after_after (s : State) (es fs : List BusEvent) (rest rest' : List Byte) (st st' : ChSt) :
    (s.after es rest st).after fs rest' st' = s.after (es ++ fs) rest' st' := by
  simp only [State.after, List.append_assoc]

@[simp] theorem after_sensorIn (s : State) (es : List BusEvent) (rest : List Byte) (st : ChSt) :
    (s.after es rest st).env.sensorIn = rest := rfl

theorem enter_emit (s : State) (st : ChSt) (e : BusEvent) : enter st (emit e s) = s.after [e] s.env.sensorIn st := rfl

theorem Running.after {s : State} (h : Running s) (es : List BusEvent) (rest : List Byte) (st : ChSt) :
    Running (s.after es rest st) := ⟨h.pin, h.seq⟩

/-- The sensor answers the next read event with the byte it has ready. -/
theorem issueRead_cons {s : State} {b : Byte} {rest : List Byte} (p : Config.Preg) (event : Byte → Instr)
    (h : s.env.sensorIn = b :: rest) :
    issueRead p event s = .issue (event b) { s with env := { s.env with sensorIn := rest } } := by
  rw [issueRead, sensorAnswer, h]

/-! ### Polls -/

theorem pollBoundReached_mono {limit : PollLimit} {j k : Nat} (hjk : j ≤ k) (h : pollBoundReached limit k = false) :
    pollBoundReached limit j = false := by
  cases limit with
  | unbounded => rfl
  | bound l =>
    simp only [pollBoundReached, decide_eq_false_iff_not] at h ⊢
    omega

theorem channelEvent_poll {s : State} {b : Byte} {ok : Bool} (h : pollSatisfied s.chSt b = some ok) :
    channelEvent s = issueRead .status .busRdStatus s := by
  unfold channelEvent
  cases hst : s.chSt with
  | wPoll1 | wPoll2 | rPoll1 | rPoll2 => rfl
  | idle | wSel | wData | rSel | rRead => rw [hst] at h; cases h

/-- At a poll, a step is a STATUS read that takes the sensor's next byte. -/
theorem Running.step_status {s : State} {b : Byte} {ok : Bool} {rest : List Byte} (h : Running s)
    (hin : s.env.sensorIn = b :: rest) (hpoll : pollSatisfied s.chSt b = some ok) :
    step s = execBusRdStatus b { s with env := { s.env with sensorIn := rest } } := by
  rw [h.step_eq, channelEvent_poll hpoll, issueRead_cons _ _ hin]
  rfl

theorem Running.step_satisfied {s : State} {b : Byte} {rest : List Byte} (h : Running s)
    (hin : s.env.sensorIn = b :: rest) (hpoll : pollSatisfied s.chSt b = some true) :
    step s = .next (s.after [⟨.read, .status, b⟩] rest (afterPoll s.chSt)) := by
  rw [h.step_status hin hpoll]
  simp only [execBusRdStatus, hpoll]
  rfl

/-- The channel is still at its poll after the STATUS reads `bs`, with the answers `rest` still to come. -/
def State.polling (s : State) (bs rest : List Byte) : State :=
  { s with
    env := { s.env with sensorIn := rest }
    trace := s.trace ++ statusReads bs
    chPolls := s.chPolls + bs.length }

theorem polling_nil (s : State) : s.polling [] s.env.sensorIn = s := by
  simp [State.polling, statusReads]

theorem polling_cons (s : State) (b : Byte) (bs rest rest' : List Byte) :
    (s.polling [b] rest').polling bs rest = s.polling (b :: bs) rest := by
  simp [State.polling, statusReads, Nat.add_assoc, Nat.add_comm 1]

theorem polling_after (s : State) (bs rest rest' : List Byte) (es : List BusEvent) (st : ChSt) :
    (s.polling bs rest).after es rest' st = s.after (statusReads bs ++ es) rest' st := by
  simp [State.polling, State.after]

theorem Running.polling {s : State} (h : Running s) (bs rest : List Byte) : Running (s.polling bs rest) :=
  ⟨h.pin, h.seq⟩

theorem Running.step_failed {s : State} {b : Byte} {rest : List Byte} (h : Running s)
    (hin : s.env.sensorIn = b :: rest) (hpoll : pollSatisfied s.chSt b = some false)
    (hbound : pollBoundReached s.par.pollLimit (s.chPolls + 1) = false) : step s = .next (s.polling [b] rest) := by
  rw [h.step_status hin hpoll]
  simp only [execBusRdStatus, hpoll, hbound, Bool.false_eq_true, if_false]
  rfl

/-- Answers that fail the poll and stay under the bound are read and counted, one STATUS read each
(41_channel.md R125). -/
theorem runFor_failedPolls {s : State} {bs rest : List Byte} (h : Running s) (hin : s.env.sensorIn = bs ++ rest)
    (hfail : ∀ b ∈ bs, pollSatisfied s.chSt b = some false)
    (hbound : pollBoundReached s.par.pollLimit (s.chPolls + bs.length) = false) :
    runFor (statusReads bs) s = .next (s.polling bs rest) := by
  induction bs generalizing s with
  | nil =>
    obtain rfl : s.env.sensorIn = rest := hin
    rw [polling_nil]
    rfl
  | cons b bs ih =>
    obtain ⟨hb, hbs⟩ := List.forall_mem_cons.mp hfail
    rw [List.length_cons, Nat.add_comm bs.length, ← Nat.add_assoc] at hbound
    have hfirst : runFor (statusReads [b]) s = .next (s.polling [b] (bs ++ rest)) :=
      (runFor_singleton _ s).trans
        (h.step_failed hin hb (pollBoundReached_mono (Nat.le_add_right _ bs.length) hbound))
    have hrest := ih (h.polling [b] (bs ++ rest)) rfl hbs hbound
    rw [polling_cons] at hrest
    exact (runFor_append hfirst).trans hrest

/-- The sensor's answers to one poll at `st`: bytes that fail it, under the bound, and one that satisfies it
(41_channel.md R123–R125). -/
structure PollAnswers (limit : PollLimit) (st : ChSt) (bs : List Byte) (b : Byte) : Prop where
  failing : ∀ x ∈ bs, pollSatisfied st x = some false
  last : pollSatisfied st b = some true
  underBound : pollBoundReached limit bs.length = false

/-- A whole poll: its STATUS reads, and on to the next step of the handshake. -/
theorem runFor_poll {s : State} {bs rest : List Byte} {b : Byte} (h : Running s) (hzero : s.chPolls = 0)
    (hin : s.env.sensorIn = bs ++ b :: rest) (hpoll : PollAnswers s.par.pollLimit s.chSt bs b) :
    runFor (statusReads (bs ++ [b])) s = .next (s.after (statusReads (bs ++ [b])) rest (afterPoll s.chSt)) := by
  have hfailed := runFor_failedPolls h hin hpoll.failing (by rw [hzero, Nat.zero_add]; exact hpoll.underBound)
  have hsplit : statusReads (bs ++ [b]) = statusReads bs ++ [⟨.read, .status, b⟩] := List.map_append
  rw [hsplit, runFor_append hfailed, runFor_singleton, (h.polling _ _).step_satisfied rfl hpoll.last, polling_after]
  rfl

/-! ### The handshake of one byte, up to its data event -/

/-- The events of a handshake before its data byte: a poll, the selection, a poll (41_channel.md R122). -/
def handshake (first : List Byte) (sel : Byte) (second : List Byte) : List BusEvent :=
  statusReads first ++ [⟨.write, .writePtr, sel⟩] ++ statusReads second

/-- A write selection is the base address with the write flag (30_encoding.md R96, 41_channel.md R128). -/
theorem step_selW {s : State} {addr : Byte} (h : Running s) (hst : s.chSt = .wSel) (haddr : s.chAddr = .val addr) :
    step s = .next (s.after [⟨.write, .writePtr, writeSelection addr⟩] s.env.sensorIn .wPoll2) := by
  have hevent : channelEvent s = .issue (.busSelW ((writeSelection addr).setWidth 7)) s := by
    simp only [channelEvent, hst, haddr]
  rw [h.step_eq, hevent]
  change execBusSelW _ s = _
  rw [execBusSelW, if_pos hst, haddr, withLatch_val, if_pos (writeSelection_eq addr), ← writeSelection_eq addr,
    enter_emit]

/-- A read selection is the base address plus the offset (30_encoding.md R96, 41_channel.md R130). -/
theorem step_selR {s : State} {addr : Byte} {k : BitVec 5} (h : Running s) (hst : s.chSt = .rSel)
    (haddr : s.chAddr = .val addr) (hk : s.chI = .val k) (hlow : addr.toNat + k.toNat < 128) :
    step s = .next (s.after [⟨.write, .writePtr, readSelection addr k⟩] s.env.sensorIn .rPoll2) := by
  have hevent : channelEvent s = .issue (.busSelR ((readSelection addr k).setWidth 7)) s := by
    simp only [channelEvent, hst, haddr, hk]
  rw [h.step_eq, hevent]
  change execBusSelR _ s = _
  rw [execBusSelR, if_pos hst, haddr, hk, withLatch_val, withLatch_val, if_pos (readSelection_eq hlow),
    ← readSelection_eq hlow, enter_emit]

/-- The channel is at the first poll, `st`, of byte `k` of an access of `n` bytes at `addr`. -/
structure AtByte (s : State) (st : ChSt) (addr : Byte) (n k : BitVec 5) : Prop where
  running : Running s
  chSt : s.chSt = st
  chPolls : s.chPolls = 0
  chAddr : s.chAddr = .val addr
  chN : s.chN = .val n
  chI : s.chI = .val k

/-- A poll at `st`, the selection that comes next, and the poll at `st'` after that. -/
theorem AtByte.runFor_handshake {s : State} {st st' : ChSt} {addr sel : Byte} {n k : BitVec 5} {bs bs' rest : List Byte}
    {b b' : Byte} (h : AtByte s st addr n k) (hin : s.env.sensorIn = bs ++ b :: (bs' ++ b' :: rest))
    (hpoll : PollAnswers s.par.pollLimit st bs b) (hpoll' : PollAnswers s.par.pollLimit st' bs' b')
    (hsel : ∀ u : State, Running u → u.chSt = afterPoll st → u.chAddr = .val addr → u.chI = .val k →
      step u = .next (u.after [⟨.write, .writePtr, sel⟩] u.env.sensorIn st')) :
    runFor (handshake (bs ++ [b]) sel (bs' ++ [b'])) s =
      .next (s.after (handshake (bs ++ [b]) sel (bs' ++ [b'])) rest (afterPoll st')) := by
  obtain ⟨hrun, rfl, hzero, haddr, -, hk⟩ := h
  have hpolled := runFor_poll hrun hzero hin hpoll
  have hselected := (runFor_append hpolled).trans
    ((runFor_singleton ⟨.write, .writePtr, sel⟩ _).trans (hsel _ (hrun.after _ _ _) rfl haddr hk))
  rw [after_after, after_sensorIn] at hselected
  rw [handshake, runFor_append hselected, runFor_poll (hrun.after _ _ _) rfl rfl hpoll', after_after]
  rfl

/-- The last offset of an access. -/
theorem offset_eq_pred {k n : BitVec 5} (h : k.toNat + 1 = n.toNat) : k = n - 1 := by bv_omega

/-! ### MemRead -/

/-- An honest plan under the bound answers both polls of a read handshake. -/
theorem ReadPlan.pollAnswers {limit : PollLimit} {p : ReadPlan} (h : p.honest = true ∧ p.withinBound limit = true) :
    PollAnswers limit .rPoll1 p.busy p.clear ∧ PollAnswers limit .rPoll2 p.notReady p.ready := by
  obtain ⟨hhonest, hbound⟩ := h
  simp only [ReadPlan.honest, Bool.and_eq_true, List.all_eq_true, Bool.not_eq_true'] at hhonest
  obtain ⟨⟨⟨hbusy, hclear⟩, hnotReady⟩, hready⟩ := hhonest
  have hlimits : pollBoundReached limit p.busy.length = false ∧ pollBoundReached limit p.notReady.length = false := by
    cases limit with
    | unbounded => exact ⟨rfl, rfl⟩
    | bound l => simpa [ReadPlan.withinBound, pollBoundReached] using hbound
  exact ⟨⟨fun b hb => by simp [pollSatisfied, hbusy b hb], by simp [pollSatisfied, hclear], hlimits.1⟩,
    ⟨fun b hb => by simp [pollSatisfied, hnotReady b hb], by simp [pollSatisfied, hready], hlimits.2⟩⟩

theorem execBusRdData_eq {s : State} {n k : BitVec 5} {acc : Raw} (hst : s.chSt = .rRead) (hn : s.chN = .val n)
    (hk : s.chI = .val k) (hacc : s.chAcc = .val acc) (hlt : k.toNat < n.toNat) (d : Byte) :
    execBusRdData d s =
      if k.toNat + 1 < n.toNat then
        .next
          { s.after [⟨.read, .readData, d⟩] s.env.sensorIn .rPoll1 with
            chAcc := .val (shiftInByte acc d), chI := .val (k + 1) }
      else
        readReturn (shiftInByte acc d)
          { s.after [⟨.read, .readData, d⟩] s.env.sensorIn .idle with chAcc := .val (shiftInByte acc d) } := by
  rw [execBusRdData, if_pos hst, hacc, hn, hk, withLatch_val, withLatch_val, withLatch_val, if_pos hlt]
  rfl

/-- The data event of a MemRead's byte `k`: on to the next byte, or MemRead returns (41_channel.md R130). -/
theorem step_readData {s : State} {n k : BitVec 5} {acc : Raw} {d : Byte} {rest : List Byte} (h : Running s)
    (hst : s.chSt = .rRead) (hn : s.chN = .val n) (hk : s.chI = .val k) (hacc : s.chAcc = .val acc)
    (hlt : k.toNat < n.toNat) (hin : s.env.sensorIn = d :: rest) :
    step s =
      if k.toNat + 1 < n.toNat then
        .next
          { s.after [⟨.read, .readData, d⟩] rest .rPoll1 with
            chAcc := .val (shiftInByte acc d), chI := .val (k + 1) }
      else
        readReturn (shiftInByte acc d)
          { s.after [⟨.read, .readData, d⟩] rest .idle with chAcc := .val (shiftInByte acc d) } := by
  have hevent : channelEvent s = issueRead .readData .busRdData s := by
    simp only [channelEvent, hst]
  rw [h.step_eq, hevent, issueRead_cons _ _ hin]
  exact execBusRdData_eq (s := { s with env := { s.env with sensorIn := rest } }) hst hn hk hacc hlt d

/-- One byte of a MemRead: its handshake, then its data event. -/
theorem AtByte.runFor_read {s : State} {addr : Byte} {n k : BitVec 5} {acc : Raw} {p : ReadPlan} {rest : List Byte}
    (h : AtByte s .rPoll1 addr n k) (hacc : s.chAcc = .val acc) (hlt : k.toNat < n.toNat)
    (hlow : addr.toNat + k.toNat < 128) (hplan : p.honest = true ∧ p.withinBound s.par.pollLimit = true)
    (hin : s.env.sensorIn = p.answers ++ rest) :
    runFor (p.events (readSelection addr k)) s =
      if k.toNat + 1 < n.toNat then
        .next
          { s.after (p.events (readSelection addr k)) rest .rPoll1 with
            chAcc := .val (shiftInByte acc p.data), chI := .val (k + 1) }
      else
        readReturn (shiftInByte acc p.data)
          { s.after (p.events (readSelection addr k)) rest .idle with chAcc := .val (shiftInByte acc p.data) } := by
  obtain ⟨hpoll, hpoll'⟩ := ReadPlan.pollAnswers hplan
  have hin' : s.env.sensorIn = p.busy ++ p.clear :: (p.notReady ++ p.ready :: p.data :: rest) := by
    simpa [ReadPlan.answers] using hin
  have hhandshake := h.runFor_handshake hin' hpoll hpoll' fun u hu hst haddr hk => step_selR hu hst haddr hk hlow
  have hevents : p.events (readSelection addr k) =
      handshake (p.busy ++ [p.clear]) (readSelection addr k) (p.notReady ++ [p.ready]) ++
        [⟨.read, .readData, p.data⟩] := rfl
  rw [hevents, runFor_append hhandshake, runFor_singleton]
  refine (step_readData (h.running.after _ _ _) rfl h.chN h.chI hacc hlt rfl).trans ?_
  rw [after_after, after_after]

/-- The selection of the next byte's read is the next address (30_encoding.md R96). -/
theorem readSelection_succ (addr : Byte) {k n : BitVec 5} (h : k.toNat + 1 < n.toNat) :
    readSelection addr (k + 1) = readSelection addr k + 1 := by
  refine BitVec.eq_of_toNat_eq ?_
  have hone : (1 : Byte).toNat = 1 := rfl
  simp only [readSelection, BitVec.toNat_add, BitVec.toNat_setWidth, toNat_offset_succ h, hone]
  omega

/-- The rest of a MemRead from byte `k` on: `plans` answer the bytes still to be read. -/
theorem AtByte.runFor_memRead {s : State} {addr : Byte} {n k : BitVec 5} {acc : Raw} {plans : List ReadPlan}
    {rest : List Byte} (h : AtByte s .rPoll1 addr n k) (hacc : s.chAcc = .val acc) (hne : plans ≠ [])
    (hlen : k.toNat + plans.length = n.toNat) (hend : addr.toNat + n.toNat ≤ 128)
    (hplans : ∀ p ∈ plans, p.honest = true ∧ p.withinBound s.par.pollLimit = true)
    (hin : s.env.sensorIn = plans.flatMap ReadPlan.answers ++ rest) :
    runFor (readEvents (readSelection addr k) plans) s =
      readReturn ((plans.map ReadPlan.data).foldl shiftInByte acc)
        { s.after (readEvents (readSelection addr k) plans) rest .idle with
          chI := .val (n - 1), chAcc := .val ((plans.map ReadPlan.data).foldl shiftInByte acc) } := by
  induction plans generalizing s k acc with
  | nil => exact absurd rfl hne
  | cons p ps ih =>
    obtain ⟨hp, hps⟩ := List.forall_mem_cons.mp hplans
    rw [List.length_cons] at hlen
    rw [List.flatMap_cons, List.append_assoc] at hin
    have hbyte := h.runFor_read hacc (by omega) (by omega) hp hin
    cases ps with
    | nil =>
      have hlast : k.toNat + 1 = n.toNat := hlen
      rw [if_neg (by omega)] at hbyte
      rw [readEvents, readEvents, List.append_nil, hbyte, ← offset_eq_pred hlast, ← h.chI]
      rfl
    | cons q qs =>
      have hmore : k.toNat + 1 < n.toNat := by rw [List.length_cons] at hlen; omega
      rw [if_pos hmore] at hbyte
      have hlen' : (k + 1).toNat + (q :: qs).length = n.toNat := by rw [toNat_offset_succ hmore]; omega
      have hnext : AtByte
          { s.after (p.events (readSelection addr k)) ((q :: qs).flatMap ReadPlan.answers ++ rest) .rPoll1 with
            chAcc := .val (shiftInByte acc p.data), chI := .val (k + 1) } .rPoll1 addr n (k + 1) :=
        ⟨⟨h.running.pin, h.running.seq⟩, rfl, rfl, h.chAddr, h.chN, rfl⟩
      rw [readEvents, runFor_append hbyte, ← readSelection_succ addr hmore,
        ih hnext rfl (List.cons_ne_nil _ _) hlen' hps rfl, ← after_after (st := .rPoll1)]
      rfl

/-- Shifting a byte in is multiplying by 256 and adding the byte (20_memory.md R62). -/
theorem shiftInByte_ofNat (v : Nat) (d : Byte) :
    shiftInByte (BitVec.ofNat 192 v) d = BitVec.ofNat 192 (v * 256 + d.toNat) := by
  have hd := d.isLt
  have hdisjoint : BitVec.ofNat 192 v <<< 8 &&& d.setWidth 192 = 0#192 := by
    refine BitVec.eq_of_getLsbD_eq fun i hi => ?_
    by_cases h8 : i < 8
    · simp [h8]
    · simp [BitVec.getLsbD_of_ge d i (by omega)]
  rw [shiftInByte, ← BitVec.add_eq_or_of_and_eq_zero _ _ hdisjoint]
  refine BitVec.eq_of_toNat_eq ?_
  simp only [BitVec.toNat_add, BitVec.toNat_shiftLeft, BitVec.toNat_setWidth, BitVec.toNat_ofNat, Nat.shiftLeft_eq]
  omega

theorem foldl_shiftInByte (ds : List Byte) :
    ds.foldl shiftInByte 0 = BitVec.ofNat 192 (bytesValue ds) := by
  have hgeneral : ∀ v : Nat, ds.foldl shiftInByte (BitVec.ofNat 192 v) =
      BitVec.ofNat 192 (ds.foldl (fun v b => v * 256 + b.toNat) v) := by
    induction ds with
    | nil => exact fun _ => rfl
    | cons d ds ih => exact fun v => by rw [List.foldl_cons, shiftInByte_ofNat, ih, List.foldl_cons]
  exact hgeneral 0

/-- Settles O56: `AtByte.runFor_memRead` from byte 0. -/
theorem memReadReturnsBytes : Obligations.MemReadReturnsBytes := by
  intro u addr n plans tail hpin hrun hne hlen _ hend hplans hin
  have hfirst : readSelection addr 0 = addr := BitVec.add_zero addr
  have hstart : AtByte (startRead addr n u) .rPoll1 addr n 0 := ⟨⟨hpin, hrun⟩, rfl, rfl, rfl, rfl, rfl⟩
  have hread := hstart.runFor_memRead rfl hne ((Nat.zero_add _).trans hlen) hend hplans hin
  rw [hfirst, foldl_shiftInByte] at hread
  exact hread

/-! ### MemWrite -/

/-- An honest plan under the bound answers both polls of a write handshake. -/
theorem WritePlan.pollAnswers {limit : PollLimit} {p : WritePlan} (h : p.honest = true ∧ p.withinBound limit = true) :
    PollAnswers limit .wPoll1 p.busy1 p.clear1 ∧ PollAnswers limit .wPoll2 p.busy2 p.clear2 := by
  obtain ⟨hhonest, hbound⟩ := h
  simp only [WritePlan.honest, Bool.and_eq_true, List.all_eq_true, Bool.not_eq_true'] at hhonest
  obtain ⟨⟨⟨hbusy1, hclear1⟩, hbusy2⟩, hclear2⟩ := hhonest
  have hlimits : pollBoundReached limit p.busy1.length = false ∧ pollBoundReached limit p.busy2.length = false := by
    cases limit with
    | unbounded => exact ⟨rfl, rfl⟩
    | bound l => simpa [WritePlan.withinBound, pollBoundReached] using hbound
  exact ⟨⟨fun b hb => by simp [pollSatisfied, hbusy1 b hb], by simp [pollSatisfied, hclear1], hlimits.1⟩,
    ⟨fun b hb => by simp [pollSatisfied, hbusy2 b hb], by simp [pollSatisfied, hclear2], hlimits.2⟩⟩

/-- The data event of a MemWrite's byte `k`: on to the next byte, or MemWrite returns (41_channel.md R128). -/
theorem step_writeData {s : State} {n k : BitVec 5} {out : Raw} (h : Running s) (hst : s.chSt = .wData)
    (hn : s.chN = .val n) (hk : s.chI = .val k) (hout : s.chOut = .val out) (hlt : k.toNat < n.toNat) :
    step s =
      if k.toNat + 1 < n.toNat then
        .next
          { s.after [⟨.write, .writePtr, byteAt out n.toNat k.toNat⟩] s.env.sensorIn .wPoll1 with chI := .val (k + 1) }
      else
        writeReturn out (s.after [⟨.write, .writePtr, byteAt out n.toNat k.toNat⟩] s.env.sensorIn .idle) := by
  have hevent : channelEvent s = .issue (.busWrData (byteAt out n.toNat k.toNat)) s := by
    simp only [channelEvent, hst, hout, hn, hk]
  rw [h.step_eq, hevent]
  change execBusWrData _ s = _
  rw [execBusWrData, if_pos hst, hout, hn, hk, withLatch_val, withLatch_val, withLatch_val, if_pos ⟨hlt, rfl⟩]
  rfl

/-- One byte of a MemWrite: its handshake, then its data event. -/
theorem AtByte.runFor_write {s : State} {addr : Byte} {n k : BitVec 5} {out : Raw} {p : WritePlan} {rest : List Byte}
    (h : AtByte s .wPoll1 addr n k) (hout : s.chOut = .val out) (hlt : k.toNat < n.toNat)
    (hplan : p.honest = true ∧ p.withinBound s.par.pollLimit = true) (hin : s.env.sensorIn = p.answers ++ rest) :
    runFor (p.events addr (byteAt out n.toNat k.toNat)) s =
      if k.toNat + 1 < n.toNat then
        .next { s.after (p.events addr (byteAt out n.toNat k.toNat)) rest .wPoll1 with chI := .val (k + 1) }
      else
        writeReturn out (s.after (p.events addr (byteAt out n.toNat k.toNat)) rest .idle) := by
  obtain ⟨hpoll, hpoll'⟩ := WritePlan.pollAnswers hplan
  have hin' : s.env.sensorIn = p.busy1 ++ p.clear1 :: (p.busy2 ++ p.clear2 :: rest) := by
    simpa [WritePlan.answers] using hin
  have hhandshake := h.runFor_handshake hin' hpoll hpoll' fun u hu hst haddr _ => step_selW hu hst haddr
  have hevents : p.events addr (byteAt out n.toNat k.toNat) =
      handshake (p.busy1 ++ [p.clear1]) (writeSelection addr) (p.busy2 ++ [p.clear2]) ++
        [⟨.write, .writePtr, byteAt out n.toNat k.toNat⟩] := rfl
  rw [hevents, runFor_append hhandshake, runFor_singleton]
  refine (step_writeData (h.running.after _ _ _) rfl h.chN h.chI hout hlt).trans ?_
  rw [after_after, after_after, after_sensorIn]

/-- The rest of a MemWrite from byte `k` on: `ds` are the bytes of `out` still to be sent. -/
theorem AtByte.runFor_memWrite {s : State} {addr : Byte} {n k : BitVec 5} {out : Raw} {ds : List Byte}
    {plans : List WritePlan} {rest : List Byte} (h : AtByte s .wPoll1 addr n k) (hout : s.chOut = .val out)
    (hne : plans ≠ []) (hlen : k.toNat + plans.length = n.toNat) (hds : ds.length = plans.length)
    (hbytes : ∀ (j : Nat) (hj : j < ds.length), byteAt out n.toNat (k.toNat + j) = ds[j])
    (hplans : ∀ p ∈ plans, p.honest = true ∧ p.withinBound s.par.pollLimit = true)
    (hin : s.env.sensorIn = plans.flatMap WritePlan.answers ++ rest) :
    runFor (writeEvents addr ds plans) s =
      writeReturn out { s.after (writeEvents addr ds plans) rest .idle with chI := .val (n - 1) } := by
  induction plans generalizing s k ds with
  | nil => exact absurd rfl hne
  | cons p ps ih =>
    obtain ⟨hp, hps⟩ := List.forall_mem_cons.mp hplans
    rw [List.length_cons] at hlen hds
    rw [List.flatMap_cons, List.append_assoc] at hin
    obtain ⟨d, ds, rfl⟩ := List.exists_cons_of_length_eq_add_one hds
    have hd : byteAt out n.toNat k.toNat = d := hbytes 0 (Nat.zero_lt_succ _)
    have hbyte := h.runFor_write hout (by omega) hp hin
    rw [hd] at hbyte
    cases ps with
    | nil =>
      have hlast : k.toNat + 1 = n.toNat := hlen
      obtain rfl : ds = [] := List.eq_nil_of_length_eq_zero (Nat.succ.inj hds)
      rw [if_neg (by omega)] at hbyte
      rw [writeEvents, writeEvents, List.append_nil, hbyte, ← offset_eq_pred hlast, ← h.chI]
      rfl
    | cons q qs =>
      have hmore : k.toNat + 1 < n.toNat := by rw [List.length_cons] at hlen; omega
      rw [if_pos hmore] at hbyte
      have hlen' : (k + 1).toNat + (q :: qs).length = n.toNat := by rw [toNat_offset_succ hmore]; omega
      have hbytes' (j : Nat) (hj : j < ds.length) : byteAt out n.toNat ((k + 1).toNat + j) = ds[j] := by
        rw [toNat_offset_succ hmore, Nat.add_right_comm]
        exact hbytes (j + 1) (Nat.succ_lt_succ hj)
      have hnext : AtByte
          { s.after (p.events addr d) ((q :: qs).flatMap WritePlan.answers ++ rest) .wPoll1 with
            chI := .val (k + 1) } .wPoll1 addr n (k + 1) :=
        ⟨⟨h.running.pin, h.running.seq⟩, rfl, rfl, h.chAddr, h.chN, rfl⟩
      rw [writeEvents, runFor_append hbyte,
        ih hnext hout (List.cons_ne_nil _ _) hlen' (Nat.succ.inj hds) hbytes' hps rfl, ← after_after (st := .wPoll1)]
      rfl

/-! ### The bytes of a value -/

theorem bytesValue_append_singleton (ds : List Byte) (d : Byte) :
    bytesValue (ds ++ [d]) = bytesValue ds * 256 + d.toNat := List.foldl_append

theorem bytesValue_lt (ds : List Byte) : bytesValue ds < 256 ^ ds.length := by
  induction ds using List.reverseRecOn with
  | nil => exact Nat.one_pos
  | append_singleton ds d ih =>
    rw [bytesValue_append_singleton, List.length_append, List.length_singleton, Nat.pow_succ]
    have := d.isLt
    omega

/-- Byte `j` of a value of bytes, counted from the most significant one. -/
theorem bytesValue_div_mod {ds : List Byte} {j : Nat} (hj : j < ds.length) :
    bytesValue ds / 256 ^ (ds.length - j - 1) % 256 = ds[j].toNat := by
  induction ds using List.reverseRecOn with
  | nil => cases hj
  | append_singleton ds d ih =>
    have hd := d.isLt
    rw [bytesValue_append_singleton]
    rw [List.length_append, List.length_singleton] at hj ⊢
    obtain hlt | rfl : j < ds.length ∨ j = ds.length := by omega
    · have hexp : ds.length + 1 - j - 1 = ds.length - j - 1 + 1 := by omega
      have hhigh : (bytesValue ds * 256 + d.toNat) / 256 = bytesValue ds := by omega
      rw [List.getElem_append_left hlt, ← ih hlt, hexp, Nat.pow_succ', ← Nat.div_div_eq_div_mul, hhigh]
    · have hexp : ds.length + 1 - ds.length - 1 = 0 := by omega
      rw [hexp, Nat.pow_zero, Nat.div_one, List.getElem_concat_length rfl]
      omega

/-- Byte `j` of the channel's value is byte `j` of the bytes it was made of (41_channel.md R127, 20_memory.md R62). -/
theorem byteAt_bytesValue {ds : List Byte} {j : Nat} (hmax : ds.length ≤ 24) (hj : j < ds.length) :
    byteAt (BitVec.ofNat 192 (bytesValue ds)) ds.length j = ds[j] := by
  have hfits : bytesValue ds < 2 ^ 192 :=
    (bytesValue_lt ds).trans_le (Nat.pow_le_pow_right (n := 256) (by decide) hmax)
  refine BitVec.eq_of_toNat_eq ?_
  rw [← bytesValue_div_mod hj, byteAt, BitVec.toNat_setWidth, BitVec.toNat_ushiftRight, BitVec.toNat_ofNat,
    Nat.mod_eq_of_lt hfits, Nat.shiftRight_eq_div_pow, Nat.pow_mul]

/-- Settles O57: `AtByte.runFor_memWrite` from byte 0. -/
theorem memWriteSendsBytes : Obligations.MemWriteSendsBytes := by
  intro u addr n ds plans tail hpin hrun hne hlen hds hmax _ hplans hin
  have hvalue : bytesValue ds % 2 ^ (8 * n.toNat) = bytesValue ds := by
    rw [← hds, Nat.pow_mul]
    exact Nat.mod_eq_of_lt (bytesValue_lt ds)
  have hstart : AtByte (startWrite addr n (bytesValue ds) u) .wPoll1 addr n 0 :=
    ⟨⟨hpin, hrun⟩, rfl, rfl, rfl, rfl, rfl⟩
  have hout : (startWrite addr n (bytesValue ds) u).chOut = .val (BitVec.ofNat 192 (bytesValue ds)) := by
    rw [startWrite_chOut, hvalue, zext192]
  have hbytes (j : Nat) (hj : j < ds.length) :
      byteAt (BitVec.ofNat 192 (bytesValue ds)) n.toNat ((0 : BitVec 5).toNat + j) = ds[j] := by
    rw [← byteAt_bytesValue (hds.trans_le hmax) hj, hds]
    exact congrArg _ (Nat.zero_add j)
  have hwrite := hstart.runFor_memWrite hout hne ((Nat.zero_add _).trans hlen) (hds.trans hlen.symm) hbytes hplans hin
  refine hwrite.trans ?_
  rw [startWrite, hvalue]
  rfl

end Sys2Proof.Machine
end

section
/-! SUPPORT. The statements about the two encodings (30_encoding.md R90–R99). A command word is its fields, so a row's
must-be-zero mask says which fields are 0, and the decoder answers an instruction exactly on that instruction's own word
(`decodeCommand_ok_iff`). -/

namespace Sys2Proof.Machine

/-! ### The fields of a command word -/

/-- Field RSV, bits 7:0 (30_encoding.md R90). -/
def cmdRsv (w : CmdWord) : Byte := w.extractLsb' 0 8

/-- A command word is its fields. -/
theorem cmdWord_ext_iff {w v : CmdWord} :
    w = v ↔ cmdOp w = cmdOp v ∧ cmdReg w = cmdReg v ∧ cmdFld w = cmdFld v ∧ cmdLen w = cmdLen v ∧
      cmdAddr w = cmdAddr v ∧ cmdRsv w = cmdRsv v := by
  refine ⟨fun h => h ▸ ⟨rfl, rfl, rfl, rfl, rfl, rfl⟩, fun ⟨hop, hreg, hfld, hlen, haddr, hrsv⟩ => ?_⟩
  simp only [cmdOp, cmdReg, cmdFld, cmdLen, cmdAddr, cmdRsv, BitVec.toNat_eq, BitVec.extractLsb'_toNat,
    Nat.shiftRight_eq_div_pow] at *
  omega

@[simp] theorem cmdOp_and (w v : CmdWord) : cmdOp (w &&& v) = cmdOp w &&& cmdOp v := BitVec.extractLsb'_and
@[simp] theorem cmdReg_and (w v : CmdWord) : cmdReg (w &&& v) = cmdReg w &&& cmdReg v := BitVec.extractLsb'_and
@[simp] theorem cmdFld_and (w v : CmdWord) : cmdFld (w &&& v) = cmdFld w &&& cmdFld v := BitVec.extractLsb'_and
@[simp] theorem cmdLen_and (w v : CmdWord) : cmdLen (w &&& v) = cmdLen w &&& cmdLen v := BitVec.extractLsb'_and
@[simp] theorem cmdAddr_and (w v : CmdWord) : cmdAddr (w &&& v) = cmdAddr w &&& cmdAddr v := BitVec.extractLsb'_and
@[simp] theorem cmdRsv_and (w v : CmdWord) : cmdRsv (w &&& v) = cmdRsv w &&& cmdRsv v := BitVec.extractLsb'_and

section Pack
variable (op : BitVec 5) (reg fld : BitVec 3) (len : BitVec 5) (addr : Byte)

@[simp] theorem cmdRsv_packCommand : cmdRsv (packCommand op reg fld len addr) = 0 :=
  BitVec.extractLsb'_append_eq_right

@[simp] theorem cmdAddr_packCommand : cmdAddr (packCommand op reg fld len addr) = addr := by
  rw [cmdAddr, packCommand, BitVec.extractLsb'_append_eq_of_le (by decide)]
  exact BitVec.extractLsb'_append_eq_right

@[simp] theorem cmdLen_packCommand : cmdLen (packCommand op reg fld len addr) = len := by
  rw [cmdLen, packCommand, BitVec.extractLsb'_append_eq_of_le (by decide),
    BitVec.extractLsb'_append_eq_of_le (by decide)]
  exact BitVec.extractLsb'_append_eq_right

@[simp] theorem cmdFld_packCommand : cmdFld (packCommand op reg fld len addr) = fld := by
  rw [cmdFld, packCommand, BitVec.extractLsb'_append_eq_of_le (by decide),
    BitVec.extractLsb'_append_eq_of_le (by decide), BitVec.extractLsb'_append_eq_of_le (by decide)]
  exact BitVec.extractLsb'_append_eq_right

@[simp] theorem cmdReg_packCommand : cmdReg (packCommand op reg fld len addr) = reg := by
  rw [cmdReg, packCommand, BitVec.extractLsb'_append_eq_of_le (by decide),
    BitVec.extractLsb'_append_eq_of_le (by decide), BitVec.extractLsb'_append_eq_of_le (by decide),
    BitVec.extractLsb'_append_eq_of_le (by decide)]
  exact BitVec.extractLsb'_append_eq_right

@[simp] theorem cmdOp_packCommand : cmdOp (packCommand op reg fld len addr) = op := by
  rw [cmdOp, packCommand, BitVec.extractLsb'_append_eq_of_le (by decide),
    BitVec.extractLsb'_append_eq_of_le (by decide), BitVec.extractLsb'_append_eq_of_le (by decide),
    BitVec.extractLsb'_append_eq_of_le (by decide)]
  exact BitVec.extractLsb'_append_eq_left

end Pack

theorem packCommand_eq_iff {op : BitVec 5} {reg fld : BitVec 3} {len : BitVec 5} {addr : Byte} {w : CmdWord} :
    packCommand op reg fld len addr = w ↔
      cmdOp w = op ∧ cmdReg w = reg ∧ cmdFld w = fld ∧ cmdLen w = len ∧ cmdAddr w = addr ∧ cmdRsv w = 0 := by
  rw [eq_comm, cmdWord_ext_iff]
  simp only [cmdOp_packCommand, cmdReg_packCommand, cmdFld_packCommand, cmdLen_packCommand, cmdAddr_packCommand,
    cmdRsv_packCommand]

/-! ### The must-be-zero masks -/

/-- A field of a mask, full or empty. -/
def maskField (n : Nat) (full : Bool) : BitVec n := if full then BitVec.allOnes n else 0

theorem and_maskField_eq_zero_iff {n : Nat} {x : BitVec n} {full : Bool} :
    x &&& maskField n full = 0 ↔ (full = true → x = 0) := by
  cases full <;> simp [maskField]

/-- The must-be-zero mask of a row: RSV, and of the operand fields those that are full. -/
def mbzMask (reg fld len addr : Bool) : CmdWord :=
  packCommand 0 (maskField 3 reg) (maskField 3 fld) (maskField 5 len) (maskField 8 addr) ||| 0xFF

theorem mbzMask_fields : ∀ reg fld len addr : Bool,
    cmdOp (mbzMask reg fld len addr) = 0 ∧ cmdReg (mbzMask reg fld len addr) = maskField 3 reg ∧
      cmdFld (mbzMask reg fld len addr) = maskField 3 fld ∧ cmdLen (mbzMask reg fld len addr) = maskField 5 len ∧
      cmdAddr (mbzMask reg fld len addr) = maskField 8 addr ∧ cmdRsv (mbzMask reg fld len addr) = maskField 8 true := by
  decide

theorem and_mbzMask_eq_zero_iff (w : CmdWord) (reg fld len addr : Bool) :
    w &&& mbzMask reg fld len addr = 0 ↔
      (reg = true → cmdReg w = 0) ∧ (fld = true → cmdFld w = 0) ∧ (len = true → cmdLen w = 0) ∧
        (addr = true → cmdAddr w = 0) ∧ cmdRsv w = 0 := by
  obtain ⟨hop, hreg, hfld, hlen, haddr, hrsv⟩ := mbzMask_fields reg fld len addr
  rw [cmdWord_ext_iff, cmdOp_and, cmdReg_and, cmdFld_and, cmdLen_and, cmdAddr_and, cmdRsv_and, hop, hreg, hfld, hlen,
    haddr, hrsv]
  change cmdOp w &&& 0 = 0 ∧ cmdReg w &&& _ = 0 ∧ cmdFld w &&& _ = 0 ∧ cmdLen w &&& _ = 0 ∧ cmdAddr w &&& _ = 0 ∧
    cmdRsv w &&& _ = 0 ↔ _
  simp only [and_maskField_eq_zero_iff, true_implies]
  exact and_iff_right BitVec.and_zero

theorem unlessSet_ok_iff {w mbz : CmdWord} {i j : Instr} : unlessSet w mbz i = .ok j ↔ w &&& mbz = 0 ∧ i = j := by
  unfold unlessSet
  split
  next hz => simp only [Except.ok.injEq, hz, true_and]
  next hz => simp only [reduceCtorEq, hz, false_and]

/-! ### The rows of the command table -/

section Rows
variable {op : BitVec 5} {reg fld : BitVec 3} {len : BitVec 5} {addr : Byte} {w : CmdWord}

/-- A row without operands: every bit below OP must be zero (30_encoding.md R91). -/
theorem packCommand_eq_iff_plain : packCommand op 0 0 0 0 = w ↔ cmdOp w = op ∧ w &&& 0x07FFFFFF = 0 := by
  have hmask : w &&& 0x07FFFFFF = 0 ↔ _ := and_mbzMask_eq_zero_iff w true true true true
  rw [packCommand_eq_iff, hmask]
  tauto

/-- A row with LEN and ADDR (30_encoding.md R91). -/
theorem packCommand_eq_iff_access :
    packCommand op 0 0 len addr = w ↔ cmdOp w = op ∧ w &&& 0x07E000FF = 0 ∧ cmdLen w = len ∧ cmdAddr w = addr := by
  have hmask : w &&& 0x07E000FF = 0 ↔ _ := and_mbzMask_eq_zero_iff w true true false false
  rw [packCommand_eq_iff, hmask]
  tauto

/-- A row with REG (30_encoding.md R91). -/
theorem packCommand_eq_iff_register :
    packCommand op reg 0 0 0 = w ↔ cmdOp w = op ∧ w &&& 0x00FFFFFF = 0 ∧ cmdReg w = reg := by
  have hmask : w &&& 0x00FFFFFF = 0 ↔ _ := and_mbzMask_eq_zero_iff w false true true true
  rw [packCommand_eq_iff, hmask]
  tauto

/-- A row with REG and FLD (30_encoding.md R91). -/
theorem packCommand_eq_iff_field :
    packCommand op reg fld 0 0 = w ↔ cmdOp w = op ∧ w &&& 0x001FFFFF = 0 ∧ cmdReg w = reg ∧ cmdFld w = fld := by
  have hmask : w &&& 0x001FFFFF = 0 ↔ _ := and_mbzMask_eq_zero_iff w false false true true
  rw [packCommand_eq_iff, hmask]
  tauto

end Rows

/-! ### Command words -/

/-- The decoder answers an instruction exactly on that instruction's command word. -/
theorem decodeCommand_ok_iff {w : CmdWord} {i : Instr} : decodeCommand w = .ok i ↔ encode i = .command w := by
  constructor
  · intro h
    unfold decodeCommand at h
    split at h
    case h_14 => cases h
    all_goals
      obtain ⟨hz, rfl⟩ := unlessSet_ok_iff.mp h
      refine congrArg Encoded.command ?_
    case h_1 hop | h_12 hop | h_13 hop => exact packCommand_eq_iff_plain.mpr ⟨BitVec.eq_of_toNat_eq hop, hz⟩
    case h_2 hop | h_3 hop => exact packCommand_eq_iff_access.mpr ⟨BitVec.eq_of_toNat_eq hop, hz, rfl, rfl⟩
    case h_4 hop | h_5 hop => exact packCommand_eq_iff_register.mpr ⟨BitVec.eq_of_toNat_eq hop, hz, rfl⟩
    all_goals next hop => exact packCommand_eq_iff_field.mpr ⟨BitVec.eq_of_toNat_eq hop, hz, rfl, rfl⟩
  · intro h
    cases i with
    | nop | waitrdy | sreset =>
      obtain ⟨hop, hz⟩ := packCommand_eq_iff_plain.mp (Encoded.command.inj h)
      simp only [decodeCommand, hop]
      exact unlessSet_ok_iff.mpr ⟨hz, rfl⟩
    | vread len addr | vwrite len addr =>
      obtain ⟨hop, hz, rfl, rfl⟩ := packCommand_eq_iff_access.mp (Encoded.command.inj h)
      simp only [decodeCommand, hop]
      exact unlessSet_ok_iff.mpr ⟨hz, rfl⟩
    | rdreg reg | wrreg reg =>
      obtain ⟨hop, hz, rfl⟩ := packCommand_eq_iff_register.mp (Encoded.command.inj h)
      simp only [decodeCommand, hop]
      exact unlessSet_ok_iff.mpr ⟨hz, rfl⟩
    | fdec reg fld | fdecr reg fld | fenc reg fld | fins reg fld | rdfld reg fld | wrfld reg fld =>
      obtain ⟨hop, hz, rfl, rfl⟩ := packCommand_eq_iff_field.mp (Encoded.command.inj h)
      simp only [decodeCommand, hop]
      exact unlessSet_ok_iff.mpr ⟨hz, rfl⟩
    | busRdStatus | busSelW | busSelR | busWrData | busRdData => cases h

/-! ### Bus words -/

theorem append_eq_append_iff {m n : Nat} {x x' : BitVec m} {y y' : BitVec n} :
    x ++ y = x' ++ y' ↔ x = x' ∧ y = y' := by
  refine ⟨fun h => ⟨?_, ?_⟩, fun ⟨hx, hy⟩ => hx ▸ hy ▸ rfl⟩
  · simpa only [BitVec.extractLsb'_append_eq_left] using congrArg (BitVec.extractLsb' n m) h
  · simpa only [BitVec.extractLsb'_append_eq_right] using congrArg (BitVec.extractLsb' 0 n) h

/-- A bus word is its direction and physical register, and its byte (30_encoding.md R97). -/
theorem busWord_eq_append (w : BusWord) : w = w.extractLsb' 8 3 ++ w.extractLsb' 0 8 := by
  refine BitVec.eq_of_toNat_eq ?_
  rw [BitVec.extractLsb'_append_extractLsb'_eq_extractLsb' (show 8 = 0 + 8 from rfl)]
  simp

/-- The byte of a bus word is its top bit and the seven bits below it. -/
theorem busByte_eq_append (w : BusWord) :
    w.extractLsb' 0 8 = BitVec.ofBool (w.getLsbD 7) ++ w.extractLsb' 0 7 := by
  refine BitVec.eq_of_getLsbD_eq fun k hk => ?_
  rw [BitVec.getLsbD_append]
  split
  next hlow => simp [hlow, hk]
  next hhigh =>
    obtain rfl : k = 7 := by omega
    simp

/-! The kinds of bus event by the bits above the byte (30_encoding.md R97). -/

theorem packBus_readStatus (b : Byte) : packBus ⟨.read, .status, b⟩ = 0b000#3 ++ b :=
  congrArg (· ++ b) (by decide : 0#1 ++ Config.Preg.addr .status = 0b000#3)

theorem packBus_readData (b : Byte) : packBus ⟨.read, .readData, b⟩ = 0b010#3 ++ b :=
  congrArg (· ++ b) (by decide : 0#1 ++ Config.Preg.addr .readData = 0b010#3)

theorem packBus_writePtr (b : Byte) : packBus ⟨.write, .writePtr, b⟩ = 0b101#3 ++ b :=
  congrArg (· ++ b) (by decide : 1#1 ++ Config.Preg.addr .writePtr = 0b101#3)

/-- An event's word is known by its kind and its byte. -/
theorem bus_packBus_eq_iff {e : Config.BusEvent} {kind : BitVec 3} {w : BusWord} (he : packBus e = kind ++ e.byte) :
    Encoded.bus (packBus e) = .bus w ↔ w.extractLsb' 8 3 = kind ∧ w.extractLsb' 0 8 = e.byte := by
  rw [Encoded.bus.injEq, he, eq_comm, ← append_eq_append_iff, ← busWord_eq_append]

theorem busByte_eq_iff {w : BusWord} {flag : Bool} {a : BitVec 7} :
    w.extractLsb' 0 8 = BitVec.ofBool flag ++ a ↔ w.getLsbD 7 = flag ∧ w.extractLsb' 0 7 = a := by
  rw [busByte_eq_append, append_eq_append_iff, BitVec.ofBool_eq_iff_eq]

/-- What a bus instruction says of the phase: a data byte stands after a write selection, a selection does not, and a
read may stand anywhere (30_encoding.md R98). -/
def fitsPhase (pending : Bool) : Instr → Prop
  | .busWrData _ => pending = true
  | .busSelW _ => pending = false
  | .busSelR _ => pending = false
  | _ => True

/-- The decoder answers a bus instruction exactly on its own word, in a phase that it fits. -/
theorem decodeBus_ok_iff {pending : Bool} {w : BusWord} {i : Instr} :
    decodeBus pending w = .ok i ↔ encode i = .bus w ∧ fitsPhase pending i := by
  constructor
  · intro h
    unfold decodeBus at h
    split at h
    case h_1 hkind =>
      cases h
      exact ⟨(bus_packBus_eq_iff (packBus_readStatus _)).mpr ⟨BitVec.eq_of_toNat_eq hkind, rfl⟩, trivial⟩
    case h_2 hkind =>
      cases h
      exact ⟨(bus_packBus_eq_iff (packBus_readData _)).mpr ⟨BitVec.eq_of_toNat_eq hkind, rfl⟩, trivial⟩
    case h_3 hkind =>
      have hword {d : Byte} (hd : w.extractLsb' 0 8 = d) : Encoded.bus (packBus ⟨.write, .writePtr, d⟩) = .bus w :=
        (bus_packBus_eq_iff (packBus_writePtr d)).mpr ⟨BitVec.eq_of_toNat_eq hkind, hd⟩
      split_ifs at h with hp hflag
      · cases h
        exact ⟨hword rfl, hp⟩
      · cases h
        exact ⟨hword ((busByte_eq_iff (flag := true)).mpr ⟨hflag, rfl⟩), Bool.eq_false_iff.mpr hp⟩
      · cases h
        have hclear : w.getLsbD 7 = false := Bool.eq_false_iff.mpr hflag
        exact ⟨hword ((busByte_eq_iff (flag := false)).mpr ⟨hclear, rfl⟩), Bool.eq_false_iff.mpr hp⟩
    case h_4 => cases h
  · rintro ⟨h, hphase⟩
    cases i with
    | busRdStatus b =>
      obtain ⟨hkind, rfl⟩ := (bus_packBus_eq_iff (packBus_readStatus b)).mp h
      simp only [decodeBus, hkind]
      rfl
    | busRdData b =>
      obtain ⟨hkind, rfl⟩ := (bus_packBus_eq_iff (packBus_readData b)).mp h
      simp only [decodeBus, hkind]
      rfl
    | busWrData b =>
      obtain ⟨hkind, rfl⟩ := (bus_packBus_eq_iff (packBus_writePtr b)).mp h
      cases hphase
      simp only [decodeBus, hkind]
      rfl
    | busSelW a =>
      obtain ⟨hkind, hbyte⟩ := (bus_packBus_eq_iff (packBus_writePtr _)).mp h
      obtain ⟨hflag, rfl⟩ := busByte_eq_iff (flag := true).mp hbyte
      cases hphase
      simp only [decodeBus, hkind, hflag]
      rfl
    | busSelR a =>
      obtain ⟨hkind, hbyte⟩ := (bus_packBus_eq_iff (packBus_writePtr _)).mp h
      obtain ⟨hflag, rfl⟩ := busByte_eq_iff (flag := false).mp hbyte
      cases hphase
      simp only [decodeBus, hkind, hflag]
      rfl
    | nop | vread | vwrite | rdreg | wrreg | fdec | fdecr | fenc | fins | rdfld | wrfld | waitrdy | sreset => cases h

theorem fitsPhase_afterSelection (i : Instr) : fitsPhase i.afterSelection i := by
  cases i <;> trivial

/-- Settles O1: an instruction fits the phase that its own place asks for. -/
theorem encodeThenDecode : Obligations.EncodeThenDecode := by
  intro i
  cases hi : encode i with
  | command w => exact decodeCommand_ok_iff.mpr hi
  | bus w => exact decodeBus_ok_iff.mpr ⟨hi, fitsPhase_afterSelection i⟩

/-- Settles O2. -/
theorem decodeThenEncode : Obligations.DecodeThenEncode := by
  intro pending e i h
  cases e with
  | command w => exact decodeCommand_ok_iff.mp h
  | bus w => exact (decodeBus_ok_iff.mp h).1

/-! ### The command table -/

/-- A row stands at its opcode; its match is the opcode alone and its mask has all of OP (30_encoding.md R91). -/
theorem commandRows_getElem? {k : Nat} {row : CmdWord × CmdWord} (h : commandRows[k]? = some row) :
    row.1 = packCommand (cmdOp row.1) 0 0 0 0 ∧ (cmdOp row.1).toNat = k ∧ cmdOp row.2 = BitVec.allOnes 5 := by
  have hk : k < 13 := (List.getElem?_eq_some_iff.mp h).1
  interval_cases k <;> cases h <;> exact ⟨rfl, rfl, rfl⟩

/-- A word meets a row when OP is the row's opcode and no must-be-zero bit is set. -/
theorem meets_row_iff {k : Nat} {row : CmdWord × CmdWord} (h : commandRows[k]? = some row) {w : CmdWord} :
    w &&& row.2 = row.1 ↔ (cmdOp w).toNat = k ∧ w &&& (row.2 &&& 0x07FFFFFF) = 0 := by
  obtain ⟨hmatch, rfl, hmask⟩ := commandRows_getElem? h
  rw [hmatch, eq_comm, packCommand_eq_iff_plain, BitVec.and_assoc, cmdOp_and, hmask, BitVec.and_allOnes,
    cmdOp_packCommand, BitVec.toNat_inj]

/-- The decoder accepts a word that has no must-be-zero bit of its opcode's row set. -/
theorem decodeCommand_accepts_iff {w : CmdWord} :
    (∃ i, decodeCommand w = .ok i) ↔
      ∃ row, commandRows[(cmdOp w).toNat]? = some row ∧ w &&& (row.2 &&& 0x07FFFFFF) = 0 := by
  unfold decodeCommand
  split
  case h_14 =>
    have hlen : commandRows.length ≤ (cmdOp w).toNat := by
      change 13 ≤ _
      simp only [imp_false] at *
      omega
    simp [List.getElem?_eq_none hlen]
  all_goals next hop =>
    simp only [hop, unlessSet_ok_iff, exists_and_left, exists_eq', and_true]
    simp [commandRows]

/-- Settles O3: the row that a word meets is its opcode's. -/
theorem commandTableDecides : Obligations.CommandTableDecides := by
  intro w
  constructor
  · rw [decodeCommand_accepts_iff]
    constructor
    · rintro ⟨row, hrow, hz⟩
      exact ⟨row, List.mem_of_getElem? hrow, (meets_row_iff hrow).mpr ⟨rfl, hz⟩⟩
    · rintro ⟨row, hmem, hmeets⟩
      obtain ⟨k, hrow⟩ := List.mem_iff_getElem?.mp hmem
      obtain ⟨rfl, hz⟩ := (meets_row_iff hrow).mp hmeets
      exact ⟨row, hrow, hz⟩
  · intro r1 hmem1 r2 hmem2 hmeets1 hmeets2
    obtain ⟨k1, hrow1⟩ := List.mem_iff_getElem?.mp hmem1
    obtain ⟨k2, hrow2⟩ := List.mem_iff_getElem?.mp hmem2
    obtain ⟨rfl, -⟩ := (meets_row_iff hrow1).mp hmeets1
    obtain ⟨rfl, -⟩ := (meets_row_iff hrow2).mp hmeets2
    exact Option.some.inj (hrow1.symm.trans hrow2)

/-- Settles O4: each word is decoded by evaluation. -/
theorem sampleWordsDecode : Obligations.SampleWordsDecode := by
  unfold Obligations.SampleWordsDecode
  exact ⟨rfl, rfl, rfl, rfl, rfl, rfl, rfl, rfl, rfl, rfl, rfl, rfl, rfl, rfl⟩

end Sys2Proof.Machine
end

section
/-! SUPPORT. The statements about TRACE and the handshakes (30_encoding.md R96–R99, 41_channel.md R121, R122). A step
runs part of a command's body, which issues no event (`BodyRuns`), or is a move of the handshake with its one event
(`HandshakeMove`), after which a body may run on. -/

namespace Sys2Proof.Machine

open Sys2Proof.Config (BusEvent PollLimit)

/-! ### What a body does to the channel -/

/-- `u` has TRACE and CH_ST of `s`. -/
def SameChannel (s u : State) : Prop := u.trace = s.trace ∧ u.chSt = s.chSt

/-- From `s` to `t` a body ran without a bus event: it left the channel, faulted, or started a channel procedure. -/
inductive BodyRuns (s : State) : State → Prop
  | stays {t : State} (h : SameChannel s t) : BodyRuns s t
  | faults {u : State} (info : FaultInfo) (h : SameChannel s u) : BodyRuns s (raise info u)
  | reads {u : State} (addr : Byte) (n : BitVec 5) (h : SameChannel s u) (hseq : u.seqSt = s.seqSt) :
      BodyRuns s (startRead addr n u)
  | writes {u : State} (addr : Byte) (n : BitVec 5) (v : Nat) (h : SameChannel s u) (hseq : u.seqSt = s.seqSt) :
      BodyRuns s (startWrite addr n v u)

theorem SameChannel.refl (s : State) : SameChannel s s := ⟨rfl, rfl⟩

theorem bodyRuns_raise (info : FaultInfo) (s : State) : BodyRuns s (raise info s) := .faults info (.refl s)

theorem sameChannel_dropSnapshotOf (reg : BitVec 3) (s : State) : SameChannel s (dropSnapshotOf reg s) :=
  ⟨dropSnapshotOf_trace reg s, dropSnapshotOf_chSt reg s⟩

theorem sameChannel_now (s : State) : SameChannel s (now s).2 := ⟨now_trace s, now_chSt s⟩

theorem BodyRuns.trace {s t : State} (h : BodyRuns s t) : t.trace = s.trace := by
  cases h with | stays h | faults _ h | reads _ _ h | writes _ _ _ h => exact h.1

/-- A body that runs on an idle channel leaves it idle, or at the start of a procedure with the sequencer running. -/
theorem BodyRuns.channel {s t : State} (h : BodyRuns s t) (hidle : s.chSt = .idle) (hrun : s.seqSt = .run) :
    t.chSt = .idle ∨ t.seqSt = .run ∧ (t.chSt = .rPoll1 ∨ t.chSt = .wPoll1) := by
  cases h with
  | stays h => exact .inl (h.2.trans hidle)
  | faults => exact .inl rfl
  | reads _ _ _ hseq => exact .inr ⟨hseq.trans hrun, .inl rfl⟩
  | writes _ _ _ _ hseq => exact .inr ⟨hseq.trans hrun, .inr rfl⟩

theorem exec_command_bodyRuns {i : Instr} {s t : State} (hi : i.busEvent = none) (hrun : s.seqSt = .run)
    (h : exec i s = .next t) : BodyRuns s t := by
  have hs := SameChannel.refl s
  cases i with
  | nop => cases next_inj h; exact .stays hs
  | vread len addr =>
    obtain ⟨-, rfl⟩ | ⟨-, rfl⟩ := execVread_next h
    · exact .reads _ _ hs rfl
    · exact .faults _ hs
  | vwrite len addr =>
    obtain ⟨-, c, -, rfl⟩ | ⟨-, rfl⟩ := execVwrite_next h
    · exact .writes _ _ _ hs rfl
    · exact .faults _ hs
  | rdreg reg =>
    obtain rfl | ⟨r, -, rfl⟩ := execRdreg_next h
    · exact .faults _ hs
    · exact .reads _ _ hs rfl
  | wrreg reg =>
    obtain ⟨info, rfl⟩ | ⟨r, c, -, -, -, rfl⟩ := execWrreg_next h
    · exact .faults _ hs
    · exact .writes _ _ _ (sameChannel_dropSnapshotOf reg s) (dropSnapshotOf_seqSt reg s)
  | fdec reg fld =>
    obtain ⟨info, rfl⟩ | ⟨r, f, d, v, -, -, -, -, -, rfl⟩ := execFdec_next h
    · exact .faults _ hs
    · exact .stays hs
  | fdecr reg fld =>
    obtain ⟨info, rfl⟩ | ⟨r, f, c, v, -, -, -, rfl⟩ := execFdecr_next h
    · exact .faults _ hs
    · exact .stays hs
  | fenc reg fld =>
    obtain ⟨info, rfl⟩ | ⟨r, f, c, bits, -, -, -, rfl⟩ := execFenc_next h
    · exact .faults _ hs
    · exact .stays hs
  | fins reg fld =>
    obtain ⟨info, rfl⟩ | ⟨r, f, c, bits, -, -, -, rfl⟩ := execFins_next h
    · exact .faults _ hs
    · exact .stays hs
  | rdfld reg fld =>
    obtain ⟨info, rfl⟩ | ⟨r, f, -, rfl⟩ := execRdfld_next h
    · exact .faults _ hs
    · exact .reads _ _ hs rfl
  | wrfld reg fld =>
    obtain ⟨info, rfl⟩ | ⟨r, f, c, bits, -, -, -, -, rfl⟩ := execWrfld_next h
    · exact .faults _ hs
    · exact .reads _ _ (sameChannel_dropSnapshotOf reg s) (dropSnapshotOf_seqSt reg s)
  | waitrdy =>
    obtain ⟨c, -, ⟨-, rfl⟩ | ⟨x, -, rfl⟩⟩ := execWaitrdy_next h
    · exact .faults _ hs
    · exact .reads _ _ (sameChannel_now s) hrun.symm
  | sreset =>
    cases next_inj ((execSreset_eq s).symm.trans h)
    exact .reads _ _ hs rfl
  | busRdStatus | busSelW | busSelR | busWrData | busRdData => cases hi

theorem readReturn_bodyRuns {v : Raw} {s t : State} (h : readReturn v s = .next t) : BodyRuns s t := by
  have hs := SameChannel.refl s
  obtain ⟨c, -, ⟨len, addr, -, h⟩ | ⟨reg, -, h⟩ | ⟨reg, fld, -, h⟩ | ⟨reg, fld, -, h⟩ | ⟨-, h⟩ | ⟨-, h⟩⟩ :=
    readReturn_next h
  · cases next_inj h; exact .stays hs
  · cases next_inj h; exact .stays hs
  · obtain ⟨info, -, rfl⟩ | ⟨r, f, -, ⟨x, -, rfl⟩ | ⟨-, rfl⟩⟩ := rdfldReturn_next h
    · exact .faults _ hs
    · exact .stays hs
    · exact .faults _ hs
  · obtain ⟨info, -, rfl⟩ | ⟨r, f, bits, -, -, rfl⟩ := wrfldMerge_next h
    · exact .faults _ hs
    · exact .writes _ _ _ hs rfl
  · cases next_inj ((waitrdyPolled_eq v s).symm.trans h)
    split
    · exact .stays hs
    · exact .stays hs
  · cases next_inj ((sresetMerge_eq v s).symm.trans h)
    exact .writes _ _ _ hs rfl

theorem writeReturn_bodyRuns {v : Raw} {s t : State} (h : writeReturn v s = .next t) : BodyRuns s t := by
  obtain ⟨c, -, ⟨len, addr, -, h⟩ | ⟨reg, -, h⟩ | ⟨reg, fld, -, h⟩ | ⟨-, h⟩⟩ := writeReturn_next h
  · cases next_inj h; exact .stays (.refl s)
  · cases next_inj h; exact .stays (.refl s)
  · cases next_inj h; exact .stays (.refl s)
  · cases next_inj h; exact .stays (sameChannel_now _)

/-- WAITRDY's time test is part of its body, run while the sequencer waits. -/
theorem waitTick_bodyRuns {s t : State} (h : waitTick s = .next t) : BodyRuns { s with seqSt := .run } t := by
  obtain ⟨c, t0, limit, -, -, -, ⟨-, rfl⟩ | ⟨-, rfl⟩⟩ := waitTick_next h
  · exact .stays (sameChannel_now s)
  · exact .reads _ _ (sameChannel_now s) rfl

theorem settleTick_bodyRuns {s t : State} (h : settleTick s = .next t) : BodyRuns { s with seqSt := .run } t := by
  obtain ⟨t0, -, ⟨-, rfl⟩ | ⟨-, rfl⟩⟩ := settleTick_next h
  · exact .stays (sameChannel_now s)
  · exact .stays (sameChannel_now s)

/-! ### The moves of the handshake -/

/-- The channel goes from one step of the handshake to another with one bus event (41_channel.md R122); it gives a poll
up only where polls are bounded (R125). -/
inductive HandshakeMove (limit : PollLimit) : ChSt → BusEvent → ChSt → Prop
  | polled (b : Byte) {st st' : ChSt} (hpoll : isPoll st = true) (hst' : st' = st ∨ st' = afterPoll st) :
      HandshakeMove limit st ⟨.read, .status, b⟩ st'
  | gaveUp (b : Byte) {st : ChSt} (hlimit : limit ≠ .unbounded) : HandshakeMove limit st ⟨.read, .status, b⟩ .idle
  | selectedW (a : BitVec 7) : HandshakeMove limit .wSel ⟨.write, .writePtr, 1#1 ++ a⟩ .wPoll2
  | selectedR (a : BitVec 7) : HandshakeMove limit .rSel ⟨.write, .writePtr, 0#1 ++ a⟩ .rPoll2
  | wrote (d : Byte) {st' : ChSt} (hst' : st' = .wPoll1 ∨ st' = .idle) :
      HandshakeMove limit .wData ⟨.write, .writePtr, d⟩ st'
  | read (d : Byte) {st' : ChSt} (hst' : st' = .rPoll1 ∨ st' = .idle) :
      HandshakeMove limit .rRead ⟨.read, .readData, d⟩ st'

theorem HandshakeMove.legalEvent {limit : PollLimit} {st st' : ChSt} {e : BusEvent}
    (h : HandshakeMove limit st e st') : legalEvent e = true := by
  cases h <;> rfl

/-- A write selection waits for its data byte at this step of the handshake (30_encoding.md R98, 41_channel.md R122). -/
def awaitsData (st : ChSt) : Prop := st = .wPoll2 ∨ st = .wData

/-- Bit 7 of a selection is the bit above the address (30_encoding.md R96). -/
theorem getLsbD_seven_append (b : BitVec 1) (a : BitVec 7) : (b ++ a : Byte).getLsbD 7 = b.getLsbD 0 :=
  BitVec.getLsbD_append

theorem awaitsData_afterPoll {st : ChSt} (h : isPoll st = true) : awaitsData (afterPoll st) ↔ awaitsData st := by
  cases st with
  | wPoll1 | wPoll2 | rPoll1 | rPoll2 => simp [awaitsData, afterPoll]
  | idle | wSel | wData | rSel | rRead => cases h

/-- A move keeps it that a write selection is pending exactly where the channel awaits its data byte. -/
theorem HandshakeMove.pendingAfter_iff {st st' : ChSt} {e : BusEvent} {pending : Bool}
    (h : HandshakeMove .unbounded st e st') (hp : pending = true ↔ awaitsData st) :
    pendingAfter pending e = true ↔ awaitsData st' := by
  cases h with
  | polled b hpoll hst' =>
    obtain rfl | rfl := hst'
    · exact hp
    · exact hp.trans (awaitsData_afterPoll hpoll).symm
  | gaveUp b hlimit => exact absurd rfl hlimit
  | selectedW a =>
    obtain rfl : pending = false := by simpa [awaitsData] using hp
    exact iff_of_true (getLsbD_seven_append 1#1 a) (.inl rfl)
  | selectedR a =>
    obtain rfl : pending = false := by simpa [awaitsData] using hp
    have hbit : pendingAfter false ⟨.write, .writePtr, 0#1 ++ a⟩ = false := getLsbD_seven_append 0#1 a
    simp [hbit, awaitsData]
  | wrote d hst' =>
    obtain rfl : pending = true := hp.mpr (.inr rfl)
    obtain rfl | rfl := hst' <;> simp [pendingAfter, awaitsData]
  | read d hst' =>
    obtain rfl : pending = false := by simpa [awaitsData] using hp
    obtain rfl | rfl := hst' <;> simp [pendingAfter, awaitsData]

/-- From `s` the channel moved to its step in `v` with the event `e`, which TRACE now ends with. -/
structure Moved (s : State) (e : BusEvent) (v : State) : Prop where
  move : HandshakeMove s.par.pollLimit s.chSt e v.chSt
  trace : v.trace = s.trace ++ [e]
  seqSt : v.seqSt = s.seqSt

/-- From `s` to `t` the channel moved, and where it moved to IDLE the command's body may have run on. -/
def MovesOn (s t : State) : Prop := ∃ e v, Moved s e v ∧ (t = v ∨ v.chSt = .idle ∧ BodyRuns v t)

theorem Moved.movesOn {s t : State} {e : BusEvent} (h : Moved s e t) : MovesOn s t := ⟨e, t, h, .inl rfl⟩

theorem BodyRuns.movesOn {s v t : State} {e : BusEvent} (h : BodyRuns v t) (hv : Moved s e v)
    (hidle : v.chSt = .idle) : MovesOn s t := ⟨e, v, hv, .inr ⟨hidle, h⟩⟩

theorem MovesOn.trace {s t : State} (h : MovesOn s t) : ∃ e, t.trace = s.trace ++ [e] ∧ legalEvent e = true := by
  obtain ⟨e, v, hv, rfl | ⟨-, hbody⟩⟩ := h
  · exact ⟨e, hv.trace, hv.move.legalEvent⟩
  · exact ⟨e, hbody.trace.trans hv.trace, hv.move.legalEvent⟩

/-- A bus event is a move of the handshake; after one to IDLE the command's body runs on, or a fault completes it. -/
theorem exec_event_movesOn {i : Instr} {s u t : State} (hi : channelEvent s = .issue i u) (h : exec i u = .next t) :
    MovesOn s t := by
  obtain ⟨hpoll, rfl, rfl⟩ | ⟨hst, rfl, rfl⟩ | ⟨hst, rfl, addr, -, rfl⟩ | ⟨hst, rfl, addr, k, -, -, rfl⟩ |
    ⟨hst, rfl, out, n, k, -, -, -, rfl⟩ := channelEvent_issue hi
  · change execBusRdStatus (sensorAnswer .status s).1 (sensorAnswer .status s).2 = .next t at h
    generalize (sensorAnswer .status s).1 = b at h
    rw [(sensorAnswer_state .status s).1] at h
    generalize (sensorAnswer .status s).2.env = env at h
    obtain ⟨-, rfl⟩ | ⟨-, -, rfl⟩ | ⟨-, hbound, addr, k, -, -, rfl⟩ := execBusRdStatus_next h
    · exact Moved.movesOn ⟨.polled b hpoll (.inr rfl), rfl, rfl⟩
    · exact Moved.movesOn ⟨.polled b hpoll (.inl rfl), rfl, rfl⟩
    · have hlimit : s.par.pollLimit ≠ .unbounded := fun hl => by simp [hl, pollBoundReached] at hbound
      have hbody := bodyRuns_raise (.deviceUnresponsive s.chSt addr k b)
        (enter .idle (emit ⟨.read, .status, b⟩ { s with env }))
      exact hbody.movesOn ⟨.gaveUp b hlimit, rfl, rfl⟩ rfl
  · change execBusRdData (sensorAnswer .readData s).1 (sensorAnswer .readData s).2 = .next t at h
    generalize (sensorAnswer .readData s).1 = d at h
    rw [(sensorAnswer_state .readData s).1] at h
    generalize (sensorAnswer .readData s).2.env = env at h
    obtain ⟨-, acc, n, k, -, -, -, -, ⟨-, rfl⟩ | ⟨-, h⟩⟩ := execBusRdData_next h
    · exact Moved.movesOn ⟨by rw [hst]; exact .read d (.inl rfl), rfl, rfl⟩
    · exact (readReturn_bodyRuns h).movesOn ⟨by rw [hst]; exact .read d (.inr rfl), rfl, rfl⟩ rfl
  · obtain ⟨-, addr, -, -, rfl⟩ := execBusSelW_next h
    exact Moved.movesOn ⟨by rw [hst]; exact .selectedW _, rfl, rfl⟩
  · obtain ⟨-, addr, k, -, -, -, rfl⟩ := execBusSelR_next h
    exact Moved.movesOn ⟨by rw [hst]; exact .selectedR _, rfl, rfl⟩
  · obtain ⟨-, out, n, k, -, -, -, -, -, ⟨-, rfl⟩ | ⟨-, h⟩⟩ := execBusWrData_next h
    · exact Moved.movesOn ⟨by rw [hst]; exact .wrote _ (.inl rfl), rfl, rfl⟩
    · exact (writeReturn_bodyRuns h).movesOn ⟨by rw [hst]; exact .wrote _ (.inr rfl), rfl, rfl⟩ rfl

/-! ### Every step -/

/-- A step without reset runs part of a body, or is a move of the handshake and what follows it. -/
theorem step_moves {s t : State} (hr : resetAsserted s = false) (h : step s = .next t) :
    (s.seqSt ≠ .run ∧ ∃ u, SameChannel s u ∧ u.seqSt = .run ∧ BodyRuns u t) ∨
      (s.seqSt = .run ∧ MovesOn s t) := by
  obtain ⟨hr', -⟩ | ⟨-, ⟨hidle, -, rfl⟩ | ⟨hidle, c, rest, -, hacc⟩ | ⟨hrun, i, u, hi, h⟩ | ⟨hwait, h⟩ |
    ⟨hsettle, h⟩⟩ := step_next h
  · cases hr.symm.trans hr'
  · exact .inl ⟨hidle ▸ nofun, { s with seqSt := .run }, ⟨rfl, rfl⟩, rfl, .stays ⟨rfl, rfl⟩⟩
  · refine .inl ⟨hidle ▸ nofun, acceptCommand c rest (sampleReset s), ⟨rfl, rfl⟩, rfl, ?_⟩
    obtain ⟨-, reg, fld, -, rfl⟩ | ⟨-, -, rfl⟩ | ⟨-, i, hdec, h⟩ := hacc
    · exact bodyRuns_raise _ _
    · exact bodyRuns_raise _ _
    · exact exec_command_bodyRuns (decodeCommand_busEvent hdec) rfl h
  · obtain ⟨e, v, ⟨hmove, htrace, hseq⟩, ht⟩ := exec_event_movesOn hi h
    exact .inr ⟨hrun, e, v, ⟨hmove, htrace, hseq⟩, ht⟩
  · exact .inl ⟨hwait ▸ nofun, { sampleReset s with seqSt := .run }, ⟨rfl, rfl⟩, rfl, waitTick_bodyRuns h⟩
  · exact .inl ⟨hsettle ▸ nofun, { sampleReset s with seqSt := .run }, ⟨rfl, rfl⟩, rfl, settleTick_bodyRuns h⟩

/-- Settles O46: a body issues no event, and a move of the handshake one legal event. -/
theorem traceGrowsByLegalEvents : Obligations.TraceGrowsByLegalEvents := by
  intro s t hr h
  obtain ⟨-, u, ⟨htrace, -⟩, -, hbody⟩ | ⟨-, hmoves⟩ := step_moves hr h
  · exact .inl (hbody.trace.trans htrace)
  · exact .inr hmoves.trace

/-- The channel works only while the sequencer runs, and awaits a data byte exactly while a write selection is
pending. -/
def HandshakeInOrder (s : State) : Prop :=
  (s.seqSt ≠ .run → s.chSt = .idle) ∧ (writePending s.trace = true ↔ awaitsData s.chSt)

theorem writePending_append (trace : List BusEvent) (e : BusEvent) :
    writePending (trace ++ [e]) = pendingAfter (writePending trace) e := List.foldl_append

theorem handshakeInOrder_reset (s : State) : HandshakeInOrder (vrmReset s) :=
  ⟨fun _ => rfl, by simp [writePending, awaitsData]⟩

/-- A body that runs on an idle channel with no write selection pending leaves the handshake in order. -/
theorem BodyRuns.handshakeInOrder {s t : State} (h : BodyRuns s t) (hidle : s.chSt = .idle) (hrun : s.seqSt = .run)
    (hp : writePending s.trace = true ↔ awaitsData s.chSt) : HandshakeInOrder t := by
  have hnone : writePending s.trace = false := by simpa [hidle, awaitsData] using hp
  rw [HandshakeInOrder, h.trace, hnone]
  obtain hch | ⟨hseq, hch | hch⟩ := h.channel hidle hrun
  · simp [hch, awaitsData]
  · simp [hch, hseq, awaitsData]
  · simp [hch, hseq, awaitsData]

theorem step_handshakeInOrder {s t : State} (hlimit : s.par.pollLimit = .unbounded) (hs : HandshakeInOrder s)
    (h : step s = .next t) : HandshakeInOrder t := by
  cases hr : resetAsserted s with
  | true =>
    cases next_inj ((step_of_resetAsserted hr).symm.trans h)
    exact handshakeInOrder_reset _
  | false =>
    obtain ⟨hchannel, hp⟩ := hs
    obtain ⟨hnot, u, ⟨htrace, hch⟩, hrun, hbody⟩ | ⟨hrun, e, v, ⟨hmove, htrace, hseq⟩, ht⟩ := step_moves hr h
    · exact hbody.handshakeInOrder (hch.trans (hchannel hnot)) hrun (by rwa [htrace, hch])
    · have hpv : writePending v.trace = true ↔ awaitsData v.chSt := by
        rw [htrace, writePending_append]
        exact (hlimit ▸ hmove).pendingAfter_iff hp
      obtain rfl | ⟨hidle, hbody⟩ := ht
      · exact ⟨fun hnot => absurd (hseq.trans hrun) hnot, hpv⟩
      · exact hbody.handshakeInOrder hidle (hseq.trans hrun) hpv

/-- Settles O51: every step keeps the handshake in order. -/
theorem handshakesNeverInterleave : Obligations.HandshakesNeverInterleave :=
  fun _ _ hlimit hchannel hp h => step_handshakeInOrder hlimit ⟨hchannel, hp⟩ h

/-! ### Selections -/

theorem setWidth_writeSelection (addr : Byte) : (writeSelection addr).setWidth 7 = addr.setWidth 7 := by
  simp [writeSelection, Config.ptrWriteFlag, BitVec.setWidth_or]

/-- A write selection is the base address with bit 7 set, whatever the address (30_encoding.md R96). -/
theorem execBusSelW_eq {s : State} {addr : Byte} (hst : s.chSt = .wSel) (haddr : s.chAddr = .val addr) :
    execBusSelW (addr.setWidth 7) s = .next (enter .wPoll2 (emit ⟨.write, .writePtr, writeSelection addr⟩ s)) := by
  rw [← setWidth_writeSelection, execBusSelW, if_pos hst, haddr, withLatch_val, if_pos (writeSelection_eq addr),
    ← writeSelection_eq addr]

/-- A read selection is the base address plus the offset, below bit 7 (30_encoding.md R96). -/
theorem execBusSelR_eq {s : State} {addr : Byte} {k : BitVec 5} (hst : s.chSt = .rSel) (haddr : s.chAddr = .val addr)
    (hk : s.chI = .val k) (hlow : addr.toNat + k.toNat < 128) :
    execBusSelR ((readSelection addr k).setWidth 7) s =
      .next (enter .rPoll2 (emit ⟨.write, .writePtr, readSelection addr k⟩ s)) := by
  rw [execBusSelR, if_pos hst, haddr, hk, withLatch_val, withLatch_val, if_pos (readSelection_eq hlow),
    ← readSelection_eq hlow]

/-- Settles O10: a selection the channel is at goes out. -/
theorem selectionEvents : Obligations.SelectionEvents :=
  fun _ _ haddr => ⟨fun hst => execBusSelW_eq hst haddr, fun _ hst hk hlow => execBusSelR_eq hst haddr hk hlow⟩

end Sys2Proof.Machine
end

section
/-! SUPPORT. The statements about the virtual-register channel (41_channel.md): its next event, its polls, its data
bytes, and the two commands VREAD and VWRITE. Each bus event is said once by an equation (`execBusRdStatus_failed`,
`atLastReadByte.exec_eq`, …); a run of polls and a whole VREAD are those of `runFor_failedPolls` and
`memReadReturnsBytes`. -/

namespace Sys2Proof.Machine

open Sys2Proof.Config (Field Register)

/-! ### The channel's next event -/

/-- While a command runs, what a step does is the channel's next event. -/
theorem step_of_run {s : State} (hr : resetAsserted s = false) (hrun : s.seqSt = .run) :
    step s = (channelEvent (sampleReset s)).outcome := by
  rw [step_eq_outcome, agenda, hr, if_neg Bool.false_ne_true, workAgenda, sampleReset_seqSt, hrun]

theorem channelEvent_of_isPoll {s : State} (h : isPoll s.chSt = true) :
    channelEvent s = issueRead .status .busRdStatus s := by
  obtain ⟨ok, hpoll⟩ := isPoll_pollSatisfied h 0
  exact channelEvent_poll hpoll

theorem channelEvent_rRead {s : State} (h : s.chSt = .rRead) :
    channelEvent s = issueRead .readData .busRdData s := by
  rw [channelEvent, h]

theorem channelEvent_wSel {s : State} {addr : Byte} (h : s.chSt = .wSel) (haddr : s.chAddr = .val addr) :
    channelEvent s = .issue (.busSelW (addr.setWidth 7)) s := by
  rw [← setWidth_writeSelection]
  simp only [channelEvent, h, haddr]

theorem channelEvent_rSel {s : State} {addr : Byte} {k : BitVec 5} (h : s.chSt = .rSel) (haddr : s.chAddr = .val addr)
    (hk : s.chI = .val k) : channelEvent s = .issue (.busSelR ((readSelection addr k).setWidth 7)) s := by
  simp only [channelEvent, h, haddr, hk]

theorem channelEvent_wData {s : State} {out : Raw} {n k : BitVec 5} (h : s.chSt = .wData) (hout : s.chOut = .val out)
    (hn : s.chN = .val n) (hk : s.chI = .val k) :
    channelEvent s = .issue (.busWrData (byteAt out n.toNat k.toNat)) s := by
  simp only [channelEvent, h, hout, hn, hk]

/-- With no answer chosen, the read event carries a free byte (20_memory.md R60). -/
theorem issueRead_nil {s : State} (p : Config.Preg) (event : Byte → Instr) (h : s.env.sensorIn = []) :
    ∃ b, issueRead p event s =
      .issue (event b) { s with env := { s.env with sensorDraws := s.env.sensorDraws + 1 } } := by
  refine ⟨Config.sensorByte s.env.sensorDraws s.trace p, ?_⟩
  rw [issueRead, sensorAnswer, h]

/-- Settles O6: the sample of the reset input aside, each clause is the channel's event at that step. -/
theorem stepIssuesChannelEvent : Obligations.StepIssuesChannelEvent := by
  intro s hr hrun
  have hstep {i : Instr} {u : State} (h : channelEvent (sampleReset s) = .issue i u) : step s = exec i u := by
    rw [step_of_run hr hrun, h]
    rfl
  refine ⟨fun b rest hpoll hin => ?_, fun b rest hst hin => ?_, fun hpoll hin => ?_, fun hst hin => ?_,
    fun addr hst haddr => ?_, fun addr k hst haddr hk => ?_, fun out n k hst hout hn hk => ?_⟩
  · exact hstep ((channelEvent_of_isPoll (s := sampleReset s) hpoll).trans (issueRead_cons _ _ hin))
  · exact hstep ((channelEvent_rRead (s := sampleReset s) hst).trans (issueRead_cons _ _ hin))
  · obtain ⟨b, hissue⟩ := issueRead_nil (s := sampleReset s) .status .busRdStatus hin
    exact ⟨b, hstep ((channelEvent_of_isPoll (s := sampleReset s) hpoll).trans hissue)⟩
  · obtain ⟨b, hissue⟩ := issueRead_nil (s := sampleReset s) .readData .busRdData hin
    exact ⟨b, hstep ((channelEvent_rRead (s := sampleReset s) hst).trans hissue)⟩
  · exact hstep (channelEvent_wSel (s := sampleReset s) hst haddr)
  · exact hstep (channelEvent_rSel (s := sampleReset s) hst haddr hk)
  · exact hstep (channelEvent_wData (s := sampleReset s) hst hout hn hk)

/-! ### STATUS reads -/

theorem execBusRdStatus_satisfied {s : State} {b : Byte} (h : pollSatisfied s.chSt b = some true) :
    execBusRdStatus b s = .next (enter (afterPoll s.chSt) (emit ⟨.read, .status, b⟩ s)) := by
  simp only [execBusRdStatus, h]

theorem execBusRdStatus_failed {s : State} {b : Byte} (h : pollSatisfied s.chSt b = some false)
    (hbound : pollBoundReached s.par.pollLimit (s.chPolls + 1) = false) :
    execBusRdStatus b s = .next { emit ⟨.read, .status, b⟩ s with chPolls := s.chPolls + 1 } := by
  simp only [execBusRdStatus, h, hbound, Bool.false_eq_true, if_false]

/-- The failing read that reaches the bound raises, with what the channel holds (60_exceptions.md R253). -/
theorem execBusRdStatus_gaveUp {s : State} {b addr : Byte} {k : BitVec 5} (h : pollSatisfied s.chSt b = some false)
    (hbound : pollBoundReached s.par.pollLimit (s.chPolls + 1) = true) (haddr : s.chAddr = .val addr)
    (hk : s.chI = .val k) :
    execBusRdStatus b s =
      .next (raise (.deviceUnresponsive s.chSt addr k b) (emit ⟨.read, .status, b⟩ s)) := by
  simp only [execBusRdStatus, h, hbound, if_true, haddr, hk, withLatch_val]
  rfl

/-- A poll fails on write-busy at the first three and on not read-ready at the last (41_channel.md R123, R124). -/
theorem pollSatisfied_eq_false_iff {st : ChSt} {b : Byte} :
    pollSatisfied st b = some false ↔
      (st = .wPoll1 ∨ st = .wPoll2 ∨ st = .rPoll1) ∧ b.getLsbD 1 = true ∨ st = .rPoll2 ∧ b.getLsbD 0 = false := by
  cases st <;> simp [pollSatisfied, writeBusy, readReady, Config.statusWBusyBit, Config.statusRReadyBit]

/-- Settles O7: each clause names the bit its poll tests. -/
theorem statusReadEndsPoll : Obligations.StatusReadEndsPoll := by
  intro s b
  have hends {st st' : ChSt} (hafter : afterPoll st = st') (hst : s.chSt = st)
      (hpoll : pollSatisfied st b = some true) :
      exec (.busRdStatus b) s =
        .next { s with trace := s.trace ++ [⟨.read, .status, b⟩], chSt := st', chPolls := 0 } := by
    subst hst hafter
    exact execBusRdStatus_satisfied hpoll
  have hclear (hb : b.getLsbD 1 = false) : some (!writeBusy b) = some true := congrArg (some ∘ not) hb
  exact ⟨fun hst hb => hends rfl hst (hclear hb), fun hst hb => hends rfl hst (hclear hb),
    fun hst hb => hends rfl hst (hclear hb), fun hst hb => hends rfl hst (congrArg some hb)⟩

/-- Settles O8: neither form of the limit reaches the bound. -/
theorem statusReadRepeatsPoll : Obligations.StatusReadRepeatsPoll := by
  intro s b hfail hlimit
  have hbound : pollBoundReached s.par.pollLimit (s.chPolls + 1) = false := by
    obtain hnone | ⟨l, hl, hlt⟩ := hlimit
    · rw [hnone, pollBoundReached]
    · rw [hl]
      exact decide_eq_false hlt.not_ge
  exact execBusRdStatus_failed (pollSatisfied_eq_false_iff.mpr hfail) hbound

/-- Settles O9: the bound is reached, and the raise writes its record. -/
theorem statusReadRaisesDeviceUnresponsive : Obligations.StatusReadRaisesDeviceUnresponsive := by
  intro s b addr k l hfail hl hle haddr hk
  have hbound : pollBoundReached s.par.pollLimit (s.chPolls + 1) = true := by
    rw [hl]
    exact decide_eq_true hle
  exact execBusRdStatus_gaveUp (pollSatisfied_eq_false_iff.mpr hfail) hbound haddr hk

/-! ### Runs of a poll -/

theorem length_statusReads (bs : List Byte) : (statusReads bs).length = bs.length := List.length_map _

/-- Settles O54: with no bound `runFor_failedPolls` asks nothing of the count. -/
theorem stuckPollRunsOn : Obligations.StuckPollRunsOn := by
  intro s bs tail hpin hrun hlimit hin hfail
  have hpolls := runFor_failedPolls ⟨hpin, hrun⟩ hin hfail (by rw [hlimit, pollBoundReached])
  rwa [runFor, length_statusReads] at hpolls

/-- At a poll, the failing read that reaches the bound is issued and raises (41_channel.md R125). -/
theorem Running.step_gaveUp {s : State} {b addr : Byte} {k : BitVec 5} {rest : List Byte} (h : Running s)
    (hin : s.env.sensorIn = b :: rest) (hpoll : pollSatisfied s.chSt b = some false)
    (hbound : pollBoundReached s.par.pollLimit (s.chPolls + 1) = true) (haddr : s.chAddr = .val addr)
    (hk : s.chI = .val k) :
    step s = .next (raise (.deviceUnresponsive s.chSt addr k b) (s.polling [b] rest)) := by
  rw [h.step_status hin hpoll]
  exact execBusRdStatus_gaveUp (s := { s with env := { s.env with sensorIn := rest } }) hpoll hbound haddr hk

/-- Settles O55: all failing reads but the last stay under the bound; the last one raises. -/
theorem boundedPollFaultsAtBound : Obligations.BoundedPollFaultsAtBound := by
  intro s bs tail b addr k hpin hrun hzero hlimit hin hfail haddr hk
  have hrunning : Running s := ⟨hpin, hrun⟩
  obtain ⟨hbs, hb⟩ := List.forall_mem_append.mp hfail
  have hlast : pollSatisfied s.chSt b = some false := hb b (List.mem_singleton_self b)
  have hpolls : runFor (statusReads bs) s = .next (s.polling bs (b :: tail)) :=
    runFor_failedPolls hrunning hin hbs (by simp [hlimit, hzero, pollBoundReached])
  have hbound : pollBoundReached s.par.pollLimit (s.chPolls + bs.length + 1) = true := by
    simp [hlimit, hzero, pollBoundReached]
  rw [runFor, length_statusReads] at hpolls
  refine (run_add_of_run (M := core) hpolls).trans ((run_one core _).trans ?_)
  refine ((hrunning.polling bs _).step_gaveUp rfl hlast hbound haddr hk).trans ?_
  rw [statusReads, List.map_append, ← List.append_assoc]
  rfl

/-! ### The commands VREAD and VWRITE -/

theorem execVread_admitted {len : BitVec 5} {addr : Byte} (h : inRange len addr = true) (s : State) :
    execVread len addr s = .next (startRead addr len s) := if_pos h

theorem execVwrite_admitted {len : BitVec 5} {addr : Byte} {s : State} {c : Command} (h : inRange len addr = true)
    (hc : s.seqCmd = .val c) :
    execVwrite len addr s = .next (startWrite addr len (opdLow c.opd (8 * len.toNat)) s) := by
  rw [execVwrite, if_pos h, hc, withLatch_val]

/-- Settles O17: the bits that `startWrite` keeps are those the command passes. -/
theorem channelCommandsStart : Obligations.ChannelCommandsStart := by
  intro s c len addr hpos hmax hend
  have hrange : inRange len addr = true := inRange_iff.mpr ⟨hpos, hmax, hend⟩
  refine ⟨execVread_admitted hrange s, fun hc => (execVwrite_admitted hrange hc).trans ?_⟩
  rw [startWrite, opdLow, Nat.mod_mod]
  rfl

/-- Settles O18: both commands test the range first, and MAP's registers are within it. -/
theorem addressRangeRefusesAccess : Obligations.AddressRangeRefusesAccess := by
  refine ⟨fun s len addr hout i hi => ?_, fun s c len addr hc hin => ?_, fun m r hr => ?_⟩
  · have hrange : ¬inRange len addr = true := inRange_iff.not.mpr hout
    obtain rfl | rfl := hi
    · exact if_neg hrange
    · exact if_neg hrange
  · have hrange : inRange len addr = true := inRange_iff.mpr hin
    exact ⟨⟨_, execVread_admitted hrange s, rfl, rfl⟩, ⟨_, execVwrite_admitted hrange hc, rfl, rfl⟩⟩
  · obtain ⟨-, hpos, hmax, hend, -⟩ := map_registers hr
    exact ⟨hpos, hmax, hend⟩

/-! ### Data bytes -/

/-- BUS_WR_DATA with the byte the channel is at: on to the next byte, or MemWrite returns (41_channel.md R128). -/
theorem execBusWrData_eq {s : State} {n k : BitVec 5} {out : Raw} (hst : s.chSt = .wData) (hn : s.chN = .val n)
    (hk : s.chI = .val k) (hout : s.chOut = .val out) (hlt : k.toNat < n.toNat) :
    execBusWrData (byteAt out n.toNat k.toNat) s =
      if k.toNat + 1 < n.toNat then
        .next
          { s.after [⟨.write, .writePtr, byteAt out n.toNat k.toNat⟩] s.env.sensorIn .wPoll1 with chI := .val (k + 1) }
      else
        writeReturn out (s.after [⟨.write, .writePtr, byteAt out n.toNat k.toNat⟩] s.env.sensorIn .idle) := by
  rw [execBusWrData, if_pos hst, hout, hn, hk, withLatch_val, withLatch_val, withLatch_val, if_pos ⟨hlt, rfl⟩]
  rfl

/-- Settles O11: both data events, at a byte that is not the last. -/
theorem dataEventsGoOn : Obligations.DataEventsGoOn := by
  intro s n k hn hk hmore
  have hlt : k.toNat < n.toNat := Nat.lt_of_succ_lt hmore
  exact ⟨fun out hst hout => (execBusWrData_eq hst hn hk hout hlt).trans (if_pos hmore),
    fun acc d hst hacc => (execBusRdData_eq hst hn hk hacc hlt d).trans (if_pos hmore)⟩

/-- The last data byte of a MemWrite goes out and MemWrite returns. -/
theorem atLastWriteByte.exec_eq {s : State} {c : Command} {i : Instr} {out : Raw} {d : Byte}
    (h : atLastWriteByte s c i out d) :
    exec (.busWrData d) s = writeReturn out (s.after [⟨.write, .writePtr, d⟩] s.env.sensorIn .idle) := by
  obtain ⟨hst, hout, ⟨n, k, hn, hk, hlast, rfl⟩, -, -⟩ := h
  exact (execBusWrData_eq hst hn hk hout (by omega)).trans (if_neg (by omega))

/-- The last data byte of a MemRead is taken in and MemRead returns. -/
theorem atLastReadByte.exec_eq {s : State} {c : Command} {i : Instr} {acc : Raw} (h : atLastReadByte s c i acc)
    (d : Byte) :
    exec (.busRdData d) s =
      readReturn (shiftInByte acc d)
        { s.after [⟨.read, .readData, d⟩] s.env.sensorIn .idle with chAcc := .val (shiftInByte acc d) } := by
  obtain ⟨hst, hacc, ⟨n, k, hn, hk, hlast⟩, -, -⟩ := h
  exact (execBusRdData_eq hst hn hk hacc (by omega) d).trans (if_neg (by omega))

/-! ### The returns of the channel's procedures -/

section Returns

variable {s : State} {c : Command} {v : Raw} {len : BitVec 5} {addr : Byte} {reg fld : BitVec 3}

theorem readReturn_vread (hc : s.seqCmd = .val c) (hd : decodeCommand c.cmd = .ok (.vread len addr)) :
    readReturn v s = vreadReturn v s := by
  rw [readReturn, hc, withLatch_val, hd]

theorem readReturn_rdreg (hc : s.seqCmd = .val c) (hd : decodeCommand c.cmd = .ok (.rdreg reg)) :
    readReturn v s = rdregReturn reg v s := by
  rw [readReturn, hc, withLatch_val, hd]

theorem readReturn_rdfld (hc : s.seqCmd = .val c) (hd : decodeCommand c.cmd = .ok (.rdfld reg fld)) :
    readReturn v s = rdfldReturn reg fld v s := by
  rw [readReturn, hc, withLatch_val, hd]

theorem writeReturn_vwrite (hc : s.seqCmd = .val c) (hd : decodeCommand c.cmd = .ok (.vwrite len addr)) :
    writeReturn v s = vwriteReturn s := by
  rw [writeReturn, hc, withLatch_val, hd]

theorem writeReturn_wrreg (hc : s.seqCmd = .val c) (hd : decodeCommand c.cmd = .ok (.wrreg reg)) :
    writeReturn v s = wrregReturn v s := by
  rw [writeReturn, hc, withLatch_val, hd]

theorem writeReturn_wrfld (hc : s.seqCmd = .val c) (hd : decodeCommand c.cmd = .ok (.wrfld reg fld)) :
    writeReturn v s = wrfldReturn v s := by
  rw [writeReturn, hc, withLatch_val, hd]

theorem writeReturn_sreset (hc : s.seqCmd = .val c) (hd : decodeCommand c.cmd = .ok .sreset) :
    writeReturn v s = sresetWritten v s := by
  rw [writeReturn, hc, withLatch_val, hd]

/-- RDFLD ends where the field decodes (44_register_ops.md R216). -/
theorem rdfldReturn_decodes {r : Register} {f : Field} {x : Sem} (hf : lookupField s.par.masks reg fld = .ok (r, f))
    (hx : fieldDecode f (opdLow v r.width) = some x) :
    rdfldReturn reg fld v s = .next (finishOk { takeSnapshot reg v s with rdata := .val v, rval := x }) := by
  rw [rdfldReturn, withField_ok _ hf, hx]

/-- RDFLD faults where the code has no key, with RDATA and the snapshot written (60_exceptions.md R269). -/
theorem rdfldReturn_noKey {r : Register} {f : Field} (hf : lookupField s.par.masks reg fld = .ok (r, f))
    (hx : fieldDecode f (opdLow v r.width) = none) :
    rdfldReturn reg fld v s =
      .next (raise (.invalidFieldValue .decode reg fld (.int (extractField f (opdLow v r.width))))
        { takeSnapshot reg v s with rdata := .val v }) := by
  rw [rdfldReturn, withField_ok _ hf, hx, raised_eq]

end Returns

/-- An acceptable reading of the time input is taken (44_register_ops.md R221). -/
theorem now_cons {s : State} {t : F64} {rest : List F64} (hin : s.env.timeIn = t :: rest) (hfinite : f64Finite t = true)
    (hle : extLe (f64Ext s.env.lastNow) (f64Ext t) = true) :
    now s = (t, { s with env := { s.env with timeIn := rest, lastNow := t } }) := by
  simp only [now, hin, timeReading, hfinite, hle, Bool.and_self, if_true]

/-- SRESET's settle starts with the reading it takes (44_register_ops.md R222). -/
theorem sresetWritten_eq {s : State} {v : Raw} {t : F64} {rest : List F64} (hin : s.env.timeIn = t :: rest)
    (hfinite : f64Finite t = true) (hle : extLe (f64Ext s.env.lastNow) (f64Ext t) = true) :
    sresetWritten v s =
      .next
        { s with
          rdata := .val v
          seqSt := .settle
          seqT0 := .val t
          env := { s.env with timeIn := rest, lastNow := t } } := by
  rw [sresetWritten, now_cons (s := { s with rdata := .val v, seqSt := .settle }) hin hfinite hle]

/-- Settles O12: the write's last byte, and then each command's own last lines. -/
theorem lastDataWriteEndsCommand : Obligations.LastDataWriteEndsCommand := by
  intro s c out d
  refine ⟨fun len addr h => ?_, fun i hi h => ?_, fun t rest h hin hfinite hle => ?_⟩
  · have ⟨_, _, _, hc, hd⟩ := h
    exact h.exec_eq.trans (writeReturn_vwrite hc hd)
  · have ⟨_, _, _, hc, hd⟩ := h
    obtain ⟨reg, rfl⟩ | ⟨reg, fld, rfl⟩ := hi
    · exact h.exec_eq.trans (writeReturn_wrreg hc hd)
    · exact h.exec_eq.trans (writeReturn_wrfld hc hd)
  · have ⟨_, _, _, hc, hd⟩ := h
    refine h.exec_eq.trans ((writeReturn_sreset (s := s.after _ _ _) hc hd).trans ?_)
    exact sresetWritten_eq (s := s.after _ _ _) hin hfinite hle

/-- Settles O13: the read's last byte, and then each command's own last lines. -/
theorem lastDataReadEndsCommand : Obligations.LastDataReadEndsCommand := by
  intro s c acc d
  refine ⟨fun len addr h => ?_, fun reg h => ?_, fun reg fld r f h hf => ?_⟩
  · have ⟨_, _, _, hc, hd⟩ := h
    exact (h.exec_eq d).trans (readReturn_vread hc hd)
  · have ⟨_, _, _, hc, hd⟩ := h
    exact (h.exec_eq d).trans (readReturn_rdreg hc hd)
  · have ⟨_, _, _, hc, hd⟩ := h
    have hreturn := (h.exec_eq d).trans (readReturn_rdfld hc hd)
    exact ⟨fun x hx => hreturn.trans (rdfldReturn_decodes hf hx), fun hx => hreturn.trans (rdfldReturn_noKey hf hx)⟩

/-! ### A whole VREAD -/

/-- An accepted command runs with SEQ_CMD and SEQ_ST set (60_exceptions.md R252). -/
theorem step_of_accepts {s : State} {c : Command} {rest : List Command} {i : Instr} (h : accepts s c rest i) :
    step s = exec i (acceptCommand c rest (sampleReset s)) := by
  obtain ⟨hr, hidle, hport, hcfg, hd⟩ := h
  have haccept : accept c rest (sampleReset s) = .issue i (acceptCommand c rest (sampleReset s)) := by
    rw [accept, sampleReset_cfgOk, if_pos hcfg, hd]
  have hwork : workAgenda (sampleReset s) = accept c rest (sampleReset s) := by
    rw [workAgenda, sampleReset_seqSt, hidle]
    change idleAgenda _ = _
    rw [idleAgenda, sampleReset_env, hport]
  rw [step_eq_outcome, agenda, hr, if_neg Bool.false_ne_true, hwork, haccept]
  rfl

theorem sampleReset_of_quiet {s : State} (h : s.env.resetPin = []) : sampleReset s = s := by
  rw [sampleReset, h, List.tail_nil, ← h]

/-- Settles O58: one step accepts and starts the MemRead, which returns its bytes to VREAD. -/
theorem vreadRunsToCompletion : Obligations.VreadRunsToCompletion := by
  intro s c rest len addr plans tail hpin haccepts hlen hpos hmax hend hplans hin
  have hne : plans ≠ [] := List.ne_nil_of_length_pos (hlen ▸ hpos)
  have hstart : step s = .next (startRead addr len (acceptCommand c rest s)) := by
    rw [step_of_accepts haccepts, sampleReset_of_quiet hpin]
    exact execVread_admitted (inRange_iff.mpr ⟨hpos, hmax, hend⟩) _
  have hread := memReadReturnsBytes (acceptCommand c rest s) addr len plans tail hpin rfl hne hlen hmax hend hplans hin
  obtain ⟨-, -, -, -, hd⟩ := haccepts
  rw [readReturn_vread rfl hd] at hread
  exact (run_add_of_run ((run_one core s).trans hstart)).trans hread

end Sys2Proof.Machine
end

section
/-! SUPPORT. The statements about the bit-field codec (42_codec.md): what a merge reads back as, in its own field and in
the others, and the commands that merge, encode or decode. What is true of a merge is said of its bits once
(`testBit_merge`), and a field is read through its mask (`extractField_eq_of_and_eq`); the masks of a configuration that
passes the check are disjoint (`masks_of_configCheck`). -/

namespace Sys2Proof.Machine

open Sys2Proof.Config (Field Register FieldMasks)

/-! ### Merges -/

theorem testBit_clearBits (a m k : Nat) : (clearBits a m).testBit k = (a.testBit k && !m.testBit k) := by
  rw [clearBits, Nat.testBit_xor, Nat.testBit_or]
  cases a.testBit k <;> cases m.testBit k <;> rfl

/-- A bit of a merge, inside the register, is the new one, or the old one where the mask is clear (42_codec.md R152). -/
theorem testBit_merge (f : Field) (width old bits k : Nat) :
    (merge f width old bits).testBit k =
      ((old.testBit k && !f.mask.testBit k || bits.testBit k) && decide (k < width)) := by
  rw [merge, ones, Nat.testBit_and, Nat.testBit_or, testBit_clearBits, Nat.testBit_two_pow_sub_one]

theorem testBit_mask_lt {mask width k : Nat} (hmask : mask < 2 ^ width) (hk : mask.testBit k = true) : k < width :=
  (Nat.pow_lt_pow_iff_right Nat.one_lt_two).mp ((Nat.ge_two_pow_of_testBit hk).trans_lt hmask)

theorem extractField_eq_of_and_eq {f : Field} {x y : Nat} (h : x &&& f.mask = y &&& f.mask) :
    extractField f x = extractField f y := by
  rw [extractField, h, extractField]

theorem placeBits_and_mask (f : Field) (width : Nat) (n : Int) :
    placeBits f width n &&& f.mask = placeBits f width n := by
  rw [placeBits, Nat.and_assoc, Nat.and_self]

theorem and_mask_of_fieldEncode {f : Field} {width bits : Nat} {v : Sem} (h : fieldEncode f width v = some bits) :
    bits &&& f.mask = bits := by
  obtain ⟨n, -, rfl⟩ := Option.map_eq_some_iff.mp h
  exact placeBits_and_mask f width n

/-- Through its own mask a merge shows the new bits. -/
theorem merge_and_mask {f : Field} {width : Nat} (old : Nat) {bits : Nat} (hmask : f.mask < 2 ^ width) :
    merge f width old bits &&& f.mask = bits &&& f.mask := by
  refine Nat.eq_of_testBit_eq fun k => ?_
  rw [Nat.testBit_and, Nat.testBit_and, testBit_merge]
  cases hk : f.mask.testBit k with
  | false => simp
  | true => simp [testBit_mask_lt hmask hk]

/-- Through a disjoint mask a merge shows the old bits (42_codec.md R155). -/
theorem merge_and_disjoint {f g : Field} {width : Nat} (old : Nat) {bits : Nat} (hg : g.mask < 2 ^ width)
    (hdisjoint : f.mask &&& g.mask = 0) (hbits : bits &&& f.mask = bits) :
    merge f width old bits &&& g.mask = old &&& g.mask := by
  have hf (k : Nat) (hk : g.mask.testBit k = true) : f.mask.testBit k = false := by
    simpa [hk] using congrArg (·.testBit k) hdisjoint
  refine Nat.eq_of_testBit_eq fun k => ?_
  rw [Nat.testBit_and, Nat.testBit_and, testBit_merge, ← hbits, Nat.testBit_and]
  cases hk : g.mask.testBit k with
  | false => simp
  | true => simp [hf k hk, testBit_mask_lt hg hk]

/-! ### A written field reads back -/

/-- A run of `w` ones from bit `t` up. -/
theorem testBit_runMask (w t k : Nat) : ((2 ^ w - 1) * 2 ^ t).testBit k = decide (t ≤ k ∧ k < t + w) := by
  rw [Nat.testBit_mul_two_pow, Nat.testBit_two_pow_sub_one, ← Bool.decide_and]
  exact decide_eq_decide.mpr (by omega)

theorem runMask_lt {w t width : Nat} (h : t + w ≤ width) : (2 ^ w - 1) * 2 ^ t < 2 ^ width := by
  refine Nat.lt_pow_two_of_testBit _ fun k hk => ?_
  rw [testBit_runMask]
  exact decide_eq_false (by omega)

theorem tz_runMask {w t : Nat} (hw : 1 ≤ w) : tz ((2 ^ w - 1) * 2 ^ t) = t := by
  have hbit : ((2 ^ w - 1) * 2 ^ t).testBit t = true := by
    rw [testBit_runMask]
    exact decide_eq_true (by omega)
  have hge : 2 ^ t ≤ (2 ^ w - 1) * 2 ^ t := Nat.ge_two_pow_of_testBit hbit
  have hlog : t ≤ ((2 ^ w - 1) * 2 ^ t).log2 := (Nat.le_log2 ((Nat.two_pow_pos t).trans_le hge).ne').mpr hge
  have hfind : (List.range (((2 ^ w - 1) * 2 ^ t).log2 + 1)).find? (((2 ^ w - 1) * 2 ^ t).testBit ·) = some t := by
    refine List.find?_range_eq_some.mpr ⟨hbit, List.mem_range.mpr (by omega), fun k hk => ?_⟩
    rw [testBit_runMask, decide_eq_false (by omega)]
    rfl
  rw [tz, hfind, Option.getD_some]

/-- A field of `w` bits at position `t` (42_codec.md R150). -/
theorem extractField_runMask {f : Field} {w t : Nat} (hw : 1 ≤ w) (hmask : f.mask = (2 ^ w - 1) * 2 ^ t) (raw : Nat) :
    extractField f raw = raw / 2 ^ t % 2 ^ w := by
  rw [extractField, hmask, tz_runMask hw]
  refine Nat.eq_of_testBit_eq fun k => ?_
  rw [Nat.testBit_shiftRight, Nat.testBit_and, testBit_runMask, Nat.testBit_mod_two_pow, Nat.testBit_div_two_pow,
    Bool.and_comm]
  congr 1
  · exact decide_eq_decide.mpr (by omega)
  · rw [Nat.add_comm]

/-- Settles O37: read through the mask, the merge is the placed integer, and reducing to the register's width leaves the
field's bits. -/
theorem writtenFieldReadsBack : Obligations.WrittenFieldReadsBack := by
  intro f width t w old n hw hfit hmask
  have hlt : f.mask < 2 ^ width := hmask ▸ runMask_lt hfit
  have htz : tz f.mask = t := by rw [hmask, tz_runMask hw]
  have hplaced : extractField f (merge f width old (placeBits f width n)) =
      extractField f ((n * 2 ^ t) % 2 ^ width).toNat := by
    refine extractField_eq_of_and_eq ((merge_and_mask old hlt).trans ?_)
    rw [placeBits_and_mask, placeBits, htz]
  have hshift : n * 2 ^ t % 2 ^ width = 2 ^ t * (n % 2 ^ (width - t)) := by
    rw [← Int.mul_emod_mul_of_pos _ _ (by positivity), ← pow_add, Nat.add_sub_cancel' (by omega), Int.mul_comm]
  rw [hplaced, extractField_runMask hw hmask]
  push_cast
  rw [Int.toNat_of_nonneg (Int.emod_nonneg _ (by positivity)), hshift, Int.mul_ediv_cancel_left _ (by positivity),
    Int.emod_emod_of_dvd _ (pow_dvd_pow 2 (by omega))]

/-! ### Masks that pass the configuration check -/

/-- What `maskPasses` asks of a mask (70_reset_and_hazards.md R281). -/
theorem maskPasses_iff {width : Nat} {earlier : List Nat} {mask : Nat} :
    maskPasses width earlier mask = true ↔
      mask ≠ 0 ∧ mask < 2 ^ width ∧ (∀ g ∈ earlier, mask &&& g = 0) ∧ contiguous mask = true := by
  simp [maskPasses, Nat.shiftRight_eq_div_pow, Nat.div_eq_zero_iff, and_assoc]

/-- A register with no bad field: each mask passes, and is disjoint from the earlier ones and from the later ones. -/
theorem masks_of_firstBadField {width : Nat} {earlier : List Nat} {i : Nat} {fs : List Field}
    (h : firstBadField width earlier i fs = none) :
    (∀ f ∈ fs, maskPasses width earlier f.mask = true) ∧ fs.Pairwise fun f g => f.mask &&& g.mask = 0 := by
  induction fs generalizing earlier i with
  | nil => exact ⟨nofun, .nil⟩
  | cons f fs ih =>
    rw [firstBadField] at h
    split at h
    next hf =>
      obtain ⟨hpass, hpair⟩ := ih h
      have hlater (g : Field) (hg : g ∈ fs) : maskPasses width earlier g.mask = true ∧ f.mask &&& g.mask = 0 := by
        obtain ⟨hne, hlt, hall, hrun⟩ := maskPasses_iff.mp (hpass g hg)
        obtain ⟨hthis, hearlier⟩ := List.forall_mem_cons.mp hall
        exact ⟨maskPasses_iff.mpr ⟨hne, hlt, hearlier, hrun⟩, (Nat.and_comm _ _).trans hthis⟩
      exact ⟨List.forall_mem_cons.mpr ⟨hf, fun g hg => (hlater g hg).1⟩,
        List.pairwise_cons.mpr ⟨fun g hg => (hlater g hg).2, hpair⟩⟩
    next => cases h

theorem firstBadField_of_firstBadRegister {i : Nat} {rs : List Register} (h : firstBadRegister i rs = none)
    {r : Register} (hr : r ∈ rs) : firstBadField r.width [] 0 r.fields = none := by
  induction rs generalizing i with
  | nil => cases hr
  | cons r' rs ih =>
    rw [firstBadRegister] at h
    split at h
    next => cases h
    next hgood =>
      obtain rfl | hr := List.mem_cons.mp hr
      · exact hgood
      · exact ih h hr

/-- The masks of a register whose MAP passes the check (42_codec.md R155). -/
theorem masks_of_configCheck {m : FieldMasks} (h : configCheck m = none) {r : Register} (hr : r ∈ Config.map m) :
    (∀ f ∈ r.fields, f.mask ≠ 0 ∧ f.mask < 2 ^ r.width ∧ contiguous f.mask = true) ∧
      r.fields.Pairwise fun f g => f.mask &&& g.mask = 0 := by
  obtain ⟨hpass, hpair⟩ := masks_of_firstBadField (firstBadField_of_firstBadRegister (Option.map_eq_none_iff.mp h) hr)
  refine ⟨fun f hf => ?_, hpair⟩
  obtain ⟨hne, hlt, -, hrun⟩ := maskPasses_iff.mp (hpass f hf)
  exact ⟨hne, hlt, hrun⟩

theorem masks_disjoint {fs : List Field} {i j : Nat} {f g : Field} (h : fs.Pairwise fun f g => f.mask &&& g.mask = 0)
    (hi : fs[i]? = some f) (hj : fs[j]? = some g) (hne : i ≠ j) : f.mask &&& g.mask = 0 := by
  obtain ⟨hilt, rfl⟩ := List.getElem?_eq_some_iff.mp hi
  obtain ⟨hjlt, rfl⟩ := List.getElem?_eq_some_iff.mp hj
  obtain hlt | hgt := Nat.lt_or_gt_of_ne hne
  · exact List.pairwise_iff_getElem.mp h i j hilt hjlt hlt
  · exact (Nat.and_comm _ _).trans (List.pairwise_iff_getElem.mp h j i hjlt hilt hgt)

/-- Settles O36: the default masks pass the check, and a merge shows the old bits through every other mask of a MAP that
passes it. -/
theorem fieldWriteKeepsOtherFields : Obligations.FieldWriteKeepsOtherFields := by
  have hdefault : configCheck {} = none := by decide
  refine ⟨fun r hr => (masks_of_configCheck hdefault hr).1, by decide, fun r hr => (masks_of_configCheck hdefault hr).2,
    fun m r i j f g old bits v hcheck hr hi hj hne _ hbits => ?_⟩
  obtain ⟨hmasks, hpair⟩ := masks_of_configCheck hcheck hr
  obtain ⟨-, hg, -⟩ := hmasks g (List.mem_of_getElem? hj)
  have hkept : extractField g (merge f r.width old bits) = extractField g old :=
    extractField_eq_of_and_eq
      (merge_and_disjoint old hg (masks_disjoint hpair hi hj hne) (and_mask_of_fieldEncode hbits))
  rw [fieldDecode, hkept, fieldDecode]

/-! ### The merged write of WRFLD and SRESET -/

theorem readReturn_wrfld {s : State} {c : Command} {v : Raw} {reg fld : BitVec 3} (hc : s.seqCmd = .val c)
    (hd : decodeCommand c.cmd = .ok (.wrfld reg fld)) : readReturn v s = wrfldMerge reg fld c.opv v s := by
  rw [readReturn, hc, withLatch_val, hd]

theorem readReturn_sreset {s : State} {c : Command} {v : Raw} (hc : s.seqCmd = .val c)
    (hd : decodeCommand c.cmd = .ok .sreset) : readReturn v s = sresetMerge v s := by
  rw [readReturn, hc, withLatch_val, hd]

/-- WRFLD writes the merged value (44_register_ops.md R218). -/
theorem wrfldMerge_encodes {s : State} {reg fld : BitVec 3} {r : Register} {f : Field} {opv : Sem} {old : Raw}
    {bits : Nat} (hf : lookupField s.par.masks reg fld = .ok (r, f)) (hbits : fieldEncode f r.width opv = some bits) :
    wrfldMerge reg fld opv old s = .next (startWrite r.addr (registerLen r) (merge f r.width old.toNat bits) s) := by
  rw [wrfldMerge, withField_ok _ hf, hbits]

/-- Settles O14: the read's last byte, and then the command's own merge. -/
theorem lastDataReadStartsMergedWrite : Obligations.LastDataReadStartsMergedWrite := by
  intro s c acc d
  refine ⟨fun reg fld r f bits h hf hbits => ?_, fun bits h hbits => ?_⟩
  · have ⟨_, _, _, hc, hd⟩ := h
    have hreturn := (h.exec_eq d).trans (readReturn_wrfld hc hd)
    exact hreturn.trans (wrfldMerge_encodes hf hbits)
  · have ⟨_, _, _, hc, hd⟩ := h
    have hreturn := (h.exec_eq d).trans (readReturn_sreset hc hd)
    cases hbits
    exact hreturn.trans (sresetMerge_eq _ _)

/-! ### WRREG -/

/-- A write of the full width sends every bit that RegMask keeps (42_codec.md R153). -/
theorem startWrite_regMask {m : FieldMasks} {r : Register} (hr : r ∈ Config.map m) (v : Nat) (s : State) :
    startWrite r.addr (registerLen r) (regMask r v) s =
      enter .wPoll1
        { s with
          chAddr := .val r.addr
          chN := .val (registerLen r)
          chOut := .val (zext192 (regMask r v))
          chI := .val 0 } := by
  obtain ⟨hwidth, -, -, -, hlen⟩ := map_registers hr
  rw [startWrite, hlen, ← hwidth, regMask, Nat.mod_mod]

theorem dropSnapshotOf_eq (reg : BitVec 3) (s : State) :
    dropSnapshotOf reg s = { s with snapV := if s.snapV = true ∧ s.snapR = .val reg then false else s.snapV } := by
  unfold dropSnapshotOf
  split <;> rfl

/-- Settles O20: the bytes that `startWrite` sends are those of the register's width. -/
theorem wrregStartsMaskedWrite : Obligations.WrregStartsMaskedWrite := by
  intro s c reg r hr hrw hc
  have hexec : exec (.wrreg reg) s =
      .next (startWrite r.addr (registerLen r) (regMask r c.opd.toNat) (dropSnapshotOf reg s)) := by
    refine (withRegister_ok _ hr).trans ?_
    rw [hrw, hc, withLatch_val]
  rw [hexec, startWrite_regMask (lookupRegister_mem hr), dropSnapshotOf_eq]
  rfl

/-! ### The pure codec commands -/

section CodecCommands

variable {s : State} {c : Command} {reg fld : BitVec 3} {r : Register} {f : Field}

theorem execFdecr_decodes {x : Sem} (hf : lookupField s.par.masks reg fld = .ok (r, f)) (hc : s.seqCmd = .val c)
    (hx : fieldDecode f (opdLow c.opd r.width) = some x) :
    execFdecr reg fld s = .next (finishOk { s with rval := x }) := by
  rw [execFdecr, withField_ok _ hf, hc, withLatch_val, hx]

theorem execFdecr_noKey (hf : lookupField s.par.masks reg fld = .ok (r, f)) (hc : s.seqCmd = .val c)
    (hx : fieldDecode f (opdLow c.opd r.width) = none) :
    execFdecr reg fld s =
      .next (raise (.invalidFieldValue .decode reg fld (.int (extractField f (opdLow c.opd r.width)))) s) := by
  rw [execFdecr, withField_ok _ hf, hc, withLatch_val, hx, raised_eq]

theorem execFenc_encodes {bits : Nat} (hf : lookupField s.par.masks reg fld = .ok (r, f)) (hc : s.seqCmd = .val c)
    (hbits : fieldEncode f r.width c.opv = some bits) :
    execFenc reg fld s = .next (finishOk { s with rdata := .val (zext192 bits) }) := by
  rw [execFenc, withField_ok _ hf, hc, withLatch_val, hbits]

theorem execFins_encodes {bits : Nat} (hf : lookupField s.par.masks reg fld = .ok (r, f)) (hc : s.seqCmd = .val c)
    (hbits : fieldEncode f r.width c.opv = some bits) :
    execFins reg fld s =
      .next (finishOk { s with rdata := .val (zext192 (merge f r.width (opdLow c.opd r.width) bits)) }) := by
  rw [execFins, withField_ok _ hf, hc, withLatch_val, hbits]

end CodecCommands

/-- Settles O24: each command's own outcome once its field is found and its adapter has answered. -/
theorem codecCommandsCompute : Obligations.CodecCommandsCompute :=
  fun _ _ _ _ _ _ hf hc => ⟨fun _ hx => execFdecr_decodes hf hc hx, fun hx => execFdecr_noKey hf hc hx,
    fun _ hbits => execFenc_encodes hf hc hbits, fun _ hbits => execFins_encodes hf hc hbits⟩

/-! ### Registers and fields that MAP does not have -/

theorem withRegister_error {reg : BitVec 3} {s : State} {info : FaultInfo} (k : Register → Result)
    (h : lookupRegister s.par.masks reg = .error info) : withRegister reg s k = .next (raise info s) := by
  rw [withRegister, h]
  rfl

theorem withField_error {reg fld : BitVec 3} {s : State} {info : FaultInfo} (k : Register → Field → Result)
    (h : lookupField s.par.masks reg fld = .error info) : withField reg fld s k = .next (raise info s) := by
  rw [withField, h]
  rfl

/-- The six commands that name a field look it up first (42_codec.md R154). -/
theorem exec_missingField {reg fld : BitVec 3} {s : State} {info : FaultInfo}
    (h : lookupField s.par.masks reg fld = .error info) :
    ∀ i ∈ [Instr.fdec reg fld, .fdecr reg fld, .fenc reg fld, .fins reg fld, .rdfld reg fld, .wrfld reg fld],
      exec i s = .next (raise info s) := by
  simp only [List.forall_mem_cons, exec]
  exact ⟨withField_error _ h, withField_error _ h, withField_error _ h, withField_error _ h, withField_error _ h,
    withField_error _ h, nofun⟩

theorem map_getElem?_of_le (m : FieldMasks) {reg : BitVec 3} (h : 7 ≤ reg.toNat) : (Config.map m)[reg.toNat]? = none :=
  List.getElem?_eq_none h

/-- The field counts are those of MAP's registers, whatever the masks (42_codec.md R154). -/
theorem fieldCounts_eq (m : FieldMasks) : (Config.map m).map (·.fields.length) = Config.fieldCounts := rfl

theorem lookupField_missing {m : FieldMasks} {reg fld : BitVec 3} {n : Nat}
    (hn : Config.fieldCounts[reg.toNat]? = some n) (hle : n ≤ fld.toNat) :
    lookupField m reg fld = .error (.noSuchField reg fld) := by
  rw [← fieldCounts_eq m, List.getElem?_map] at hn
  obtain ⟨r, hr, rfl⟩ := Option.map_eq_some_iff.mp hn
  simp only [lookupField, hr, List.getElem?_eq_none hle]

/-- Settles O28: the lookup comes first in every body, and fails. -/
theorem missingRegisterOrFieldFaults : Obligations.MissingRegisterOrFieldFaults := by
  intro s reg fld
  refine ⟨fun hreg => ?_, fun n hn hle => exec_missingField (lookupField_missing hn hle)⟩
  have hregister : lookupRegister s.par.masks reg = .error (.noSuchRegister reg) := by
    rw [lookupRegister, map_getElem?_of_le _ hreg]
  have hfield : lookupField s.par.masks reg fld = .error (.noSuchRegister reg) := by
    rw [lookupField, map_getElem?_of_le _ hreg]
  exact List.forall_mem_cons.mpr ⟨withRegister_error _ hregister,
    List.forall_mem_cons.mpr ⟨withRegister_error _ hregister, exec_missingField hfield⟩⟩

end Sys2Proof.Machine
end

section
/-! SUPPORT. The statements about the value adapters (43_adapters.md): the lookup tables, the scale vectors, binary32
and the firmware version. The three ways in which a lookup encode picks an entry (the least key, the greatest, the
nearest) are folds that keep the better of two entries, and what such a fold answers is said once (`foldl_best`). -/

namespace Sys2Proof.Machine

open Sys2Proof.Config (Field Register FieldMasks Adapter)

/-! ### Lookup decode -/

theorem lutDecode_eq_none_iff {table : List (F64 × Nat)} {m : Nat} :
    lutDecode table m = none ↔ ∀ k, (k, m) ∉ table := by
  rw [lutDecode, Option.map_eq_none_iff, List.find?_eq_none]
  constructor
  · intro h k hk
    exact h (k, m) hk (beq_self_eq_true m)
  · rintro h ⟨k, code⟩ hk hcode
    exact h k (eq_of_beq hcode ▸ hk)

/-- The entry that is found has the code looked for, and codes differ. -/
theorem lutDecode_of_mem {table : List (F64 × Nat)} {m : Nat} {k : F64} (hcodes : (table.map Prod.snd).Nodup)
    (hk : (k, m) ∈ table) : lutDecode table m = some (.f64 k) := by
  rw [lutDecode]
  cases hfind : table.find? fun e => e.2 == m with
  | none => exact absurd (beq_self_eq_true m) (List.find?_eq_none.mp hfind (k, m) hk)
  | some e =>
    have hcode : e.2 = m := eq_of_beq (List.find?_some hfind :)
    have hentry : e = (k, m) := List.inj_on_of_nodup_map hcodes (List.mem_of_find?_eq_some hfind) hk hcode
    rw [hentry, Option.map_some]

/-- Of the five adapters only a lookup can fail to decode (60_exceptions.md R254). -/
theorem adapterDecode_eq_none_iff {a : Adapter} {m : Nat} :
    adapterDecode a m = none ↔ ∃ table, a = .lut table ∧ lutDecode table m = none := by
  cases a <;> simp [adapterDecode]

/-- Settles O38: the entry found by its code, and the one adapter that can fail. -/
theorem lookupDecodeIsTableLookup : Obligations.LookupDecodeIsTableLookup := by
  refine ⟨fun _ _ hcodes => ⟨fun _ => lutDecode_of_mem hcodes, lutDecode_eq_none_iff.mpr⟩, by decide, fun f raw => ?_⟩
  simp only [fieldDecode, adapterDecode_eq_none_iff, lutDecode_eq_none_iff]

/-! ### Lookup encode -/

/-- A fold that keeps the better of two entries answers an entry that is as good as every other. -/
theorem foldl_best {α : Type} {better : α → α → Prop} {choose : α → α → α}
    (htrans : ∀ {a b c}, better a b → better b c → better a c)
    (hchoose : ∀ a b, choose a b = a ∧ better a b ∨ choose a b = b ∧ better b a) (e : α) (es : List α) :
    es.foldl choose e ∈ e :: es ∧ ∀ e' ∈ e :: es, better (es.foldl choose e) e' := by
  induction es generalizing e with
  | nil =>
    have hrefl : better e e := (hchoose e e).elim And.right And.right
    simpa using hrefl
  | cons b es ih =>
    obtain ⟨hmem, hbest⟩ := ih (choose e b)
    obtain ⟨hhead, htail⟩ := List.forall_mem_cons.mp hbest
    rw [List.foldl_cons]
    obtain ⟨heq, hbetter⟩ | ⟨heq, hbetter⟩ := hchoose e b <;> rw [heq] at hmem hhead htail ⊢
    · exact ⟨List.mem_cons.mpr ((List.mem_cons.mp hmem).imp_right (List.mem_cons_of_mem b)),
        List.forall_mem_cons.mpr ⟨hhead, List.forall_mem_cons.mpr ⟨htrans hhead hbetter, htail⟩⟩⟩
    · exact ⟨List.mem_cons_of_mem e hmem,
        List.forall_mem_cons.mpr ⟨htrans hhead hbetter, List.forall_mem_cons.mpr ⟨hhead, htail⟩⟩⟩

/-- The key `a` is strictly nearer to `x` than the key `b`, or as near and not greater (43_adapters.md R175). -/
def Nearer (x a b : Int) : Prop :=
  (x - a).natAbs < (x - b).natAbs ∨ (x - a).natAbs = (x - b).natAbs ∧ a ≤ b

theorem Nearer.trans {x a b c : Int} (hab : Nearer x a b) (hbc : Nearer x b c) : Nearer x a c := by
  unfold Nearer at *
  omega

/-- Below every key, the least is the nearest. -/
theorem nearer_of_le_le {x a b : Int} (hx : x ≤ a) (hab : a ≤ b) : Nearer x a b := by
  unfold Nearer
  omega

/-- Above every key, the greatest is the nearest. -/
theorem nearer_of_ge_ge {x a b : Int} (hx : a ≤ x) (hab : b ≤ a) : Nearer x a b := by
  unfold Nearer
  omega

section Entries
variable (e : Int × Nat) (es : List (Int × Nat))

theorem foldl_lesserKey : es.foldl lesserKey e ∈ e :: es ∧ ∀ e' ∈ e :: es, (es.foldl lesserKey e).1 ≤ e'.1 := by
  refine foldl_best (better := fun a b => a.1 ≤ b.1) le_trans (fun a b => ?_) e es
  unfold lesserKey
  split_ifs with h
  · exact .inr ⟨rfl, h.le⟩
  · exact .inl ⟨rfl, not_lt.mp h⟩

theorem foldl_greaterKey : es.foldl greaterKey e ∈ e :: es ∧ ∀ e' ∈ e :: es, e'.1 ≤ (es.foldl greaterKey e).1 := by
  refine foldl_best (better := fun a b => b.1 ≤ a.1) (fun hab hbc => le_trans hbc hab) (fun a b => ?_) e es
  unfold greaterKey
  split_ifs with h
  · exact .inr ⟨rfl, h.le⟩
  · exact .inl ⟨rfl, not_lt.mp h⟩

theorem foldl_nearerKey (x : Int) :
    es.foldl (nearerKey x) e ∈ e :: es ∧ ∀ e' ∈ e :: es, Nearer x (es.foldl (nearerKey x) e).1 e'.1 := by
  refine foldl_best (better := fun a b => Nearer x a.1 b.1) Nearer.trans (fun a b => ?_) e es
  unfold nearerKey lesserKey Nearer
  split_ifs with hnear htie hless
  · exact .inr ⟨rfl, .inl hnear⟩
  · exact .inr ⟨rfl, .inr ⟨htie, hless.le⟩⟩
  · exact .inl ⟨rfl, .inr ⟨htie.symm, not_lt.mp hless⟩⟩
  · exact .inl ⟨rfl, .inl (by omega)⟩

/-- A finite number snaps to the nearest key, at the ends of the table too (43_adapters.md R174, R175). -/
theorem snapToKey_fin (x : Int) :
    ∃ a ∈ e :: es, snapToKey (.fin x) e es = some a.2 ∧ ∀ e' ∈ e :: es, Nearer x a.1 e'.1 := by
  obtain ⟨hlo, hleast⟩ := foldl_lesserKey e es
  obtain ⟨hhi, hgreatest⟩ := foldl_greaterKey e es
  obtain ⟨hnear, hnearest⟩ := foldl_nearerKey e es x
  simp only [snapToKey, extLe, decide_eq_true_eq]
  split_ifs with hbelow habove
  · exact ⟨_, hlo, rfl, fun e' he' => nearer_of_le_le hbelow (hleast e' he')⟩
  · exact ⟨_, hhi, rfl, fun e' he' => nearer_of_ge_ge habove (hgreatest e' he')⟩
  · exact ⟨_, hnear, rfl, hnearest⟩

theorem snapToKey_negInf :
    ∃ a ∈ e :: es, snapToKey .negInf e es = some a.2 ∧ ∀ e' ∈ e :: es, a.1 ≤ e'.1 :=
  ⟨_, (foldl_lesserKey e es).1, rfl, (foldl_lesserKey e es).2⟩

theorem snapToKey_posInf :
    ∃ a ∈ e :: es, snapToKey .posInf e es = some a.2 ∧ ∀ e' ∈ e :: es, e'.1 ≤ a.1 :=
  ⟨_, (foldl_greaterKey e es).1, rfl, (foldl_greaterKey e es).2⟩

end Entries

theorem lutEncode_nil (v : Sem) : lutEncode [] v = none := rfl

theorem lutEncode_of_numericOperand_none (table : List (F64 × Nat)) {v : Sem} (hv : numericOperand v = none) :
    lutEncode table v = none := by
  cases table with
  | nil => rfl
  | cons e es => simp only [lutEncode, List.map_cons, hv]

/-- What holds of the entry that a number snaps to, and of all the scaled entries, holds of the encode's own entries. -/
theorem exists_lutEncode {table : List (F64 × Nat)} {v : Sem} {x : Ext} {better : Int → Int → Prop} (hne : table ≠ [])
    (hv : numericOperand v = some x)
    (hsnap : ∀ e es, ∃ a ∈ e :: es, snapToKey x e es = some a.2 ∧ ∀ e' ∈ e :: es, better a.1 e'.1) :
    ∃ e ∈ table, lutEncode table v = some (e.2 : Int) ∧ ∀ e' ∈ table, better (f64Scaled e.1) (f64Scaled e'.1) := by
  obtain ⟨e, es, rfl⟩ := List.exists_cons_of_ne_nil hne
  obtain ⟨a, ha, hcode, hbest⟩ := hsnap (scaledEntry e) (es.map scaledEntry)
  rw [← List.map_cons] at ha hbest
  obtain ⟨entry, hentry, rfl⟩ := List.mem_map.mp ha
  refine ⟨entry, hentry, ?_, fun e' he' => hbest _ (List.mem_map_of_mem he')⟩
  simp only [lutEncode, List.map_cons, hv, hcode, Option.map_some]
  rfl

/-- Integers and the binary64 values but NaN are numbers; nothing else is (43_adapters.md R174). -/
theorem numericOperand_eq_none {v : Sem} (hint : ∀ n, v ≠ .int n) (hnan : ∀ x, v = .f64 x → f64IsNaN x = true) :
    numericOperand v = none := by
  cases v with
  | int n => exact absurd rfl (hint n)
  | f64 x => exact if_pos (hnan x rfl)
  | f32 p => rfl
  | ver maj min sub => rfl
  | undef => rfl

/-- Settles O39: each kind of number snaps to its entry of the scaled table. -/
theorem lookupSnapsToNearestKey : Obligations.LookupSnapsToNearestKey := by
  refine ⟨lutEncode_nil, fun table hne _ => ⟨fun v x hv => ?fin, fun v hv => ?negInf, fun v hv => ?posInf,
    fun v hv => ?none⟩⟩
  case fin => exact exists_lutEncode (better := Nearer x) hne hv fun e es => snapToKey_fin e es x
  case negInf => exact exists_lutEncode (better := (· ≤ ·)) hne hv snapToKey_negInf
  case posInf => exact exists_lutEncode (better := (· ≥ ·)) hne hv snapToKey_posInf
  case none =>
    obtain ⟨hint, hnan⟩ := hv
    exact lutEncode_of_numericOperand_none table (numericOperand_eq_none hint hnan)

/-! ### The scale adapter -/

/-- Settles O40: the exact product or quotient of each vector, rounded once and evaluated. -/
theorem scaleAdapterVectors : Obligations.ScaleAdapterVectors := by
  simp only [Obligations.ScaleAdapterVectors, scaleEncode, scaleDecode, scaleOperand, f64Mul, f64Div, f64OfInt,
    f64Round, roundPattern_eq_stripped]
  decide +kernel

/-! ### Binary32 -/

theorem f64Ext_eq_posInf {x : F64} (h : f64Ext x = .posInf) :
    f64IsNaN x = false ∧ f64IsInf x = true ∧ f64Neg x = false := by
  unfold f64Ext at h
  split_ifs at h with hnan hinf hneg
  exact ⟨eq_false_of_ne_true hnan, hinf, eq_false_of_ne_true hneg⟩

theorem f64Ext_eq_negInf {x : F64} (h : f64Ext x = .negInf) :
    f64IsNaN x = false ∧ f64IsInf x = true ∧ f64Neg x = true := by
  unfold f64Ext at h
  split_ifs at h with hnan hinf hneg
  exact ⟨eq_false_of_ne_true hnan, hinf, hneg⟩

theorem f32OfF64_of_nan {x : F64} (h : f64IsNaN x = true) : f32OfF64 x = some 0x7FC00000 := if_pos h

theorem f32OfF64_of_inf {x : F64} (hnan : f64IsNaN x = false) (hinf : f64IsInf x = true) :
    f32OfF64 x = some (if f64Neg x then 0xFF800000 else 0x7F800000) := by
  rw [f32OfF64, hnan, if_neg Bool.false_ne_true, if_pos hinf]

/-- A finite value has its sign and rounded magnitude for a pattern, unless that is infinity's (43_adapters.md R180). -/
theorem f32OfF64_of_finite {x : F64} (h : f64Finite x = true) :
    f32OfF64 x = if f32PatternOfFinite x = f32InfPattern then none
      else some ((if f64Neg x then 2 ^ 31 else 0) + f32PatternOfFinite x) := by
  rw [f32OfF64, f64IsNaN_of_finite h, f64IsInf_of_finite h, if_neg Bool.false_ne_true, if_neg Bool.false_ne_true]

/-- The middle between the greatest finite binary32 value and 2^128, in units of 2^−1074. -/
theorem f32PatternOfFinite_eq_inf_iff (x : F64) :
    f32PatternOfFinite x = f32InfPattern ↔ (2 ^ 128 - 2 ^ 103) * 2 ^ 1074 ≤ f64Mag x := by
  have hmiddle : (patternValue 24 (f32InfPattern - 1) + patternValue 24 f32InfPattern) * 2 ^ 925 =
      2 * ((2 ^ 128 - 2 ^ 103) * 2 ^ 1074) := by decide +kernel
  rw [f32PatternOfFinite, roundPattern_eq_inf_iff (by decide) (pow_pos two_pos _) (by decide), hmiddle,
    Nat.mul_le_mul_left_iff Nat.two_pos]

theorem f32Encode_eq_none_iff {x : F64} (h : f64Finite x = true) :
    f32Encode (.f64 x) = none ↔ (2 ^ 128 - 2 ^ 103) * 2 ^ 1074 ≤ f64Mag x := by
  rw [f32Encode, Option.map_eq_none_iff, f32OfF64_of_finite h, ← f32PatternOfFinite_eq_inf_iff]
  split_ifs with hinf <;> simp [hinf]

theorem f32Encode_of_lt {x : F64} (h : f64Finite x = true) (hlt : f64Mag x < (2 ^ 128 - 2 ^ 103) * 2 ^ 1074) :
    f32Encode (.f64 x) = some (((if f64Neg x then 2 ^ 31 else 0) + f32PatternOfFinite x : Nat) : Int) := by
  rw [f32Encode, f32OfF64_of_finite h, if_neg ((f32PatternOfFinite_eq_inf_iff x).not.mpr hlt.not_ge)]
  rfl

/-- Settles O43: NaN, the infinities and the finite values on both sides of the threshold, and an integer through its
binary64 conversion. -/
theorem float32AdapterPatterns : Obligations.Float32AdapterPatterns := by
  refine ⟨fun p => ⟨?decode, rfl⟩, fun x hnan => ?nan, fun x hx => ?posInf, fun x hx => ?negInf,
    fun x => f32Encode_eq_none_iff, fun x => f32Encode_of_lt, fun n hn => if_pos hn, fun n hn => ?overflow,
    fun _ _ _ => rfl, rfl⟩
  case decode => rw [adapterDecode, f32Decode, BitVec.ofNat_toNat, BitVec.setWidth_eq]
  case nan => rw [adapterEncode, f32Encode, f32OfF64_of_nan hnan]; rfl
  case posInf =>
    obtain ⟨hnan, hinf, hneg⟩ := f64Ext_eq_posInf hx
    rw [adapterEncode, f32Encode, f32OfF64_of_inf hnan hinf, hneg]
    rfl
  case negInf =>
    obtain ⟨hnan, hinf, hneg⟩ := f64Ext_eq_negInf hx
    rw [adapterEncode, f32Encode, f32OfF64_of_inf hnan hinf, hneg]
    rfl
  case overflow => rw [adapterEncode, f32Encode, hn, if_neg Bool.false_ne_true]

/-! ### The firmware version -/

/-- `FwDecode` on bits (43_adapters.md R181). -/
theorem fwDecode_toNat (m : BitVec 16) :
    fwDecode m.toNat = .ver (m.extractLsb' 4 4) (m.extractLsb' 0 4 ++ m.extractLsb' 14 2) (m.extractLsb' 8 6) := by
  have hminor : BitVec.ofNat 6 ((m.toNat % 16) <<< 2 ||| (m.toNat >>> 14) % 4) =
      m.extractLsb' 0 4 ++ m.extractLsb' 14 2 := by
    have hfits : (m.toNat % 16) <<< 2 ||| (m.toNat >>> 14) % 4 < 2 ^ 6 :=
      Nat.or_lt_two_pow (by rw [Nat.shiftLeft_eq]; omega) (by omega)
    refine BitVec.eq_of_toNat_eq ?_
    rw [BitVec.toNat_ofNat, Nat.mod_eq_of_lt hfits, BitVec.toNat_append, BitVec.extractLsb'_toNat,
      BitVec.extractLsb'_toNat, Nat.shiftRight_zero]
  rw [fwDecode, hminor]
  rfl

/-- The four parts of a firmware version are the whole 16-bit value. -/
theorem fwParts_append (m : BitVec 16) :
    m = m.extractLsb' 14 2 ++ (m.extractLsb' 8 6 ++ (m.extractLsb' 4 4 ++ m.extractLsb' 0 4)) := by
  refine BitVec.eq_of_toNat_eq ?_
  rw [BitVec.extractLsb'_append_extractLsb'_eq_extractLsb' (show 4 = 0 + 4 from rfl),
    BitVec.extractLsb'_append_extractLsb'_eq_extractLsb' (show 8 = 0 + 8 from rfl),
    BitVec.extractLsb'_append_extractLsb'_eq_extractLsb' (show 14 = 0 + 14 from rfl)]
  simp

theorem fwDecode_injective {m m' : BitVec 16} (h : fwDecode m.toNat = fwDecode m'.toNat) : m = m' := by
  rw [fwDecode_toNat, fwDecode_toNat, Sem.ver.injEq] at h
  obtain ⟨hmajor, hminor, hsub⟩ := h
  obtain ⟨hlow, hhigh⟩ := append_eq_append_iff.mp hminor
  rw [fwParts_append m, hmajor, hlow, hhigh, hsub, ← fwParts_append m']

/-- Settles O44: the three parts on bits, which give back the whole value. -/
theorem firmwareDecodeUsesEveryBit : Obligations.FirmwareDecodeUsesEveryBit :=
  fun m => ⟨congrArg some (fwDecode_toNat m), by decide, fun _ h => fwDecode_injective (Option.some.inj h)⟩

theorem fieldEncode_fwver (mask width : Nat) (v : Sem) : fieldEncode ⟨mask, .fwver⟩ width v = none := rfl

theorem lookupField_fwVersion (m : FieldMasks) :
    lookupField m 0 2 = .ok (Config.versionReg m, ⟨m.fwVersion, .fwver⟩) := rfl

section Unencodable
variable {s : State} {c : Command} {reg fld : BitVec 3} {r : Register} {f : Field}

theorem execFenc_unencodable (hf : lookupField s.par.masks reg fld = .ok (r, f)) (hc : s.seqCmd = .val c)
    (hnone : fieldEncode f r.width c.opv = none) :
    execFenc reg fld s = .next (raise (.invalidFieldValue .encode reg fld c.opv) s) := by
  rw [execFenc, withField_ok _ hf, hc, withLatch_val, hnone, raised_eq]

theorem execFins_unencodable (hf : lookupField s.par.masks reg fld = .ok (r, f)) (hc : s.seqCmd = .val c)
    (hnone : fieldEncode f r.width c.opv = none) :
    execFins reg fld s = .next (raise (.invalidFieldValue .encode reg fld c.opv) s) := by
  rw [execFins, withField_ok _ hf, hc, withLatch_val, hnone, raised_eq]

end Unencodable

/-- Settles O45: the field is VERSION.fw_version, and its adapter encodes nothing. -/
theorem firmwareEncodeAlwaysFaults : Obligations.FirmwareEncodeAlwaysFaults := by
  refine ⟨fun _ => rfl, fun s c hc i hi => ⟨raise (.invalidFieldValue .encode 0 2 c.opv) s, ?_, rfl, rfl, rfl, rfl⟩⟩
  have hfield := lookupField_fwVersion s.par.masks
  have hnone := fieldEncode_fwver s.par.masks.fwVersion (Config.versionReg s.par.masks).width c.opv
  obtain rfl | rfl := hi
  · exact execFenc_unencodable hfield hc hnone
  · exact execFins_unencodable hfield hc hnone

end Sys2Proof.Machine
end

section
/-! SUPPORT. The statements about the register commands RDREG, FDEC, WRREG, RDFLD and WRFLD (44_register_ops.md
R210–R219). Each outcome of a command's body is said once by an equation (`execFdec_decodes`, `execWrfld_encodes`, …). A
whole WRFLD of a one-byte register is two one-byte accesses whose polls are satisfied at their first read. -/

namespace Sys2Proof.Machine

open Sys2Proof.Config (BusEvent Field Register)

/-! ### The outcomes of the bodies -/

section RegisterCommands

variable {s : State} {c : Command} {reg fld : BitVec 3} {r : Register} {f : Field} {d : Raw}

/-- The held snapshot is decoded into RVAL (44_register_ops.md R212). -/
theorem execFdec_decodes {x : Sem} (hf : lookupField s.par.masks reg fld = .ok (r, f)) (hv : s.snapV = true)
    (hr : s.snapR = .val reg) (hd : s.snapD = .val d) (hx : fieldDecode f (opdLow d r.width) = some x) :
    execFdec reg fld s = .next (finishOk { s with rval := x }) := by
  rw [execFdec, withField_ok _ hf, if_pos ⟨hv, hr⟩, hd, withLatch_val, hx]

/-- A code with no key faults (60_exceptions.md R254). -/
theorem execFdec_noKey (hf : lookupField s.par.masks reg fld = .ok (r, f)) (hv : s.snapV = true)
    (hr : s.snapR = .val reg) (hd : s.snapD = .val d) (hx : fieldDecode f (opdLow d r.width) = none) :
    execFdec reg fld s =
      .next (raise (.invalidFieldValue .decode reg fld (.int (extractField f (opdLow d r.width)))) s) := by
  rw [execFdec, withField_ok _ hf, if_pos ⟨hv, hr⟩, hd, withLatch_val, hx, raised_eq]

theorem execFdec_noSnapshot (hf : lookupField s.par.masks reg fld = .ok (r, f))
    (h : ¬(s.snapV = true ∧ s.snapR = .val reg)) :
    execFdec reg fld s = .next (raise (.noSnapshot reg s.snapV (if s.snapV then s.snapR else .undef)) s) := by
  rw [execFdec, withField_ok _ hf, if_neg h, raised_eq]

theorem execWrreg_readOnly (hr : lookupRegister s.par.masks reg = .ok r) (ho : r.access = .ro) :
    execWrreg reg s = .next (raise (.readOnlyRegister reg) s) := by
  rw [execWrreg, withRegister_ok _ hr, ho, raised_eq]

theorem execWrfld_readOnly (hf : lookupField s.par.masks reg fld = .ok (r, f)) (ho : r.access = .ro) :
    execWrfld reg fld s = .next (raise (.readOnlyRegister reg) s) := by
  rw [execWrfld, withField_ok _ hf, ho, raised_eq]

theorem execWrfld_unencodable (hf : lookupField s.par.masks reg fld = .ok (r, f)) (hrw : r.access = .rw)
    (hc : s.seqCmd = .val c) (hnone : fieldEncode f r.width c.opv = none) :
    execWrfld reg fld s = .next (raise (.invalidFieldValue .encode reg fld c.opv) s) := by
  rw [execWrfld, withField_ok _ hf, hrw, hc]
  simp only [withLatch_val, hnone, raised_eq]

/-- WRFLD of a value that encodes reads the register afresh (44_register_ops.md R218). -/
theorem execWrfld_encodes {bits : Nat} (hf : lookupField s.par.masks reg fld = .ok (r, f)) (hrw : r.access = .rw)
    (hc : s.seqCmd = .val c) (hbits : fieldEncode f r.width c.opv = some bits) :
    execWrfld reg fld s = .next (startRead r.addr (registerLen r) (dropSnapshotOf reg s)) := by
  rw [execWrfld, withField_ok _ hf, hrw, hc, withLatch_val, hbits]

end RegisterCommands

/-- Settles O22: the field decodes, or its code has no key. -/
theorem fdecDecodesSnapshot : Obligations.FdecDecodesSnapshot :=
  fun _ _ _ _ _ _ hf hv hr hd => ⟨fun _ hx => execFdec_decodes hf hv hr hd hx, execFdec_noKey hf hv hr hd⟩

/-- Settles O23: without a snapshot of that register FDEC's test fails. -/
theorem fdecWithoutSnapshotFaults : Obligations.FdecWithoutSnapshotFaults := by
  intro s reg fld p hf hno
  refine execFdec_noSnapshot (r := p.1) (f := p.2) hf fun ⟨hv, hr⟩ => ?_
  obtain hfalse | hother := hno
  · cases hfalse.symm.trans hv
  · exact hother hr

/-- Settles O29: the access check comes before the operands are read. -/
theorem readOnlyRegisterRefusesWrites : Obligations.ReadOnlyRegisterRefusesWrites := by
  intro s reg fld r ho i hi
  obtain ⟨rfl, hr⟩ | ⟨rfl, f, hf⟩ := hi
  · exact execWrreg_readOnly hr ho
  · exact execWrfld_readOnly hf ho

/-- Settles O21: `execWrfld_encodes`, with the snapshot's flag written out. -/
theorem wrfldStartsFreshRead : Obligations.WrfldStartsFreshRead := by
  intro s c reg fld r f bits hf hrw hc hbits
  refine (execWrfld_encodes hf hrw hc hbits).trans ?_
  rw [dropSnapshotOf_eq]
  rfl

/-! ### RDFLD as RDREG and FDEC -/

/-- Settles O60: the RDREG leaves the snapshot that the FDEC decodes, and it is the value that the RDFLD decodes. -/
theorem rdfldIsRdregThenFdec : Obligations.RdfldIsRdregThenFdec := by
  intro s c c' reg fld ⟨r, f⟩ acc d h hd' hf
  have ⟨hst, hacc, hlast, hc, hd⟩ := h
  have hrdreg : atLastReadByte { s with seqCmd := .val c' } c' (.rdreg reg) acc := ⟨hst, hacc, hlast, rfl, hd'⟩
  have hread := (h.exec_eq d).trans (readReturn_rdfld hc hd)
  have hu := (hrdreg.exec_eq d).trans (readReturn_rdreg rfl hd')
  cases hx : fieldDecode f (opdLow (shiftInByte acc d) r.width) with
  | some x =>
    exact ⟨_, _, _, hread.trans (rdfldReturn_decodes hf hx), hu, execFdec_decodes hf rfl rfl rfl hx, rfl, rfl, rfl, rfl,
      rfl, rfl, rfl, rfl⟩
  | none =>
    exact ⟨_, _, _, hread.trans (rdfldReturn_noKey hf hx), hu, execFdec_noKey hf rfl rfl rfl hx, rfl, rfl, rfl, rfl,
      rfl, rfl, rfl, rfl⟩

/-! ### One-byte accesses whose polls are satisfied at their first read -/

section OneByte

variable {s : State} {addr s1 s2 d : Byte} {rest : List Byte}

/-- Two polls satisfied at their first read, the selection between them, whatever the bound (41_channel.md R122). -/
theorem AtByte.runFor_promptHandshake {st st' : ChSt} {sel : Byte} {n k : BitVec 5} (h : AtByte s st addr n k)
    (hin : s.env.sensorIn = s1 :: s2 :: rest) (hpoll : pollSatisfied st s1 = some true)
    (hpoll' : pollSatisfied st' s2 = some true)
    (hsel : ∀ u : State, Running u → u.chSt = afterPoll st → u.chAddr = .val addr → u.chI = .val k →
      step u = .next (u.after [⟨.write, .writePtr, sel⟩] u.env.sensorIn st')) :
    runFor (handshake [s1] sel [s2]) s = .next (s.after (handshake [s1] sel [s2]) rest (afterPoll st')) := by
  obtain ⟨hrun, rfl, -, haddr, -, hk⟩ := h
  have hpolled : runFor (statusReads [s1]) s = .next (s.after (statusReads [s1]) (s2 :: rest) (afterPoll s.chSt)) :=
    (runFor_singleton _ _).trans (hrun.step_satisfied hin hpoll)
  have hselected := (runFor_append hpolled).trans
    ((runFor_singleton ⟨.write, .writePtr, sel⟩ _).trans (hsel _ (hrun.after _ _ _) rfl haddr hk))
  rw [after_after, after_sensorIn] at hselected
  rw [handshake, runFor_append hselected]
  refine (runFor_singleton _ _).trans (((hrun.after _ _ _).step_satisfied rfl hpoll').trans ?_)
  rw [after_after]
  rfl

/-- The four events of a one-byte access whose polls take one read each: poll, selection, poll, data event
(41_channel.md R122). -/
def promptEvents (s1 sel s2 : Byte) (e : BusEvent) : List BusEvent := handshake [s1] sel [s2] ++ [e]

theorem shiftInByte_zero (d : Byte) : shiftInByte 0 d = d.setWidth 192 := by simp [shiftInByte]

/-- A one-byte MemRead whose polls are satisfied at once (41_channel.md R130). -/
theorem runFor_promptRead (h : Running s) (hlow : addr.toNat < 128) (hclear : s1.getLsbD 1 = false)
    (hready : s2.getLsbD 0 = true) (hin : s.env.sensorIn = s1 :: s2 :: d :: rest) :
    runFor (promptEvents s1 addr s2 ⟨.read, .readData, d⟩) (startRead addr 1 s) =
      readReturn (d.setWidth 192)
        { s.after (promptEvents s1 addr s2 ⟨.read, .readData, d⟩) rest .idle with
          chAddr := .val addr, chN := .val 1, chI := .val 0, chAcc := .val (d.setWidth 192) } := by
  have hstart : AtByte (startRead addr 1 s) .rPoll1 addr 1 0 := ⟨⟨h.pin, h.seq⟩, rfl, rfl, rfl, rfl, rfl⟩
  have hfirst : readSelection addr 0 = addr := BitVec.add_zero addr
  have hhandshake := hstart.runFor_promptHandshake (sel := addr) (st' := .rPoll2) hin (congrArg (some ∘ not) hclear)
    (congrArg some hready) fun u hu hst haddr hk => hfirst ▸ step_selR hu hst haddr hk hlow
  rw [promptEvents, runFor_append hhandshake, runFor_singleton]
  refine (step_readData (hstart.running.after _ _ _) rfl rfl rfl rfl Nat.zero_lt_one rfl).trans ?_
  rw [if_neg (by decide), after_after, shiftInByte_zero]
  rfl

/-- A one-byte MemWrite whose polls are satisfied at once sends the value's byte (41_channel.md R128). -/
theorem runFor_promptWrite {v : Nat} (h : Running s) (hv : v < 2 ^ 8) (hclear : s1.getLsbD 1 = false)
    (hclear' : s2.getLsbD 1 = false) (hin : s.env.sensorIn = s1 :: s2 :: rest) :
    runFor (promptEvents s1 (writeSelection addr) s2 ⟨.write, .writePtr, BitVec.ofNat 8 v⟩) (startWrite addr 1 v s) =
      writeReturn (zext192 v)
        { s.after (promptEvents s1 (writeSelection addr) s2 ⟨.write, .writePtr, BitVec.ofNat 8 v⟩) rest .idle with
          chAddr := .val addr, chN := .val 1, chI := .val 0, chOut := .val (zext192 v) } := by
  have hstart : AtByte (startWrite addr 1 v s) .wPoll1 addr 1 0 := ⟨⟨h.pin, h.seq⟩, rfl, rfl, rfl, rfl, rfl⟩
  have hout : (startWrite addr 1 v s).chOut = .val (zext192 v) := by
    rw [startWrite_chOut]
    exact congrArg (Latch.val ∘ zext192) (Nat.mod_eq_of_lt hv)
  have hbyte : byteAt (zext192 v) (1 : BitVec 5).toNat (0 : BitVec 5).toNat = BitVec.ofNat 8 v := by
    refine BitVec.eq_of_toNat_eq ?_
    simp [byteAt, zext192]
  have hhandshake := hstart.runFor_promptHandshake (sel := writeSelection addr) (st' := .wPoll2) hin
    (congrArg (some ∘ not) hclear) (congrArg (some ∘ not) hclear') fun u hu hst haddr _ => step_selW hu hst haddr
  rw [promptEvents, runFor_append hhandshake, runFor_singleton]
  refine (step_writeData (hstart.running.after _ _ _) rfl rfl rfl hout Nat.zero_lt_one).trans ?_
  rw [if_neg (by decide), after_after, hbyte, after_sensorIn, ← hout]
  rfl

end OneByte

/-! ### A whole WRFLD of a one-byte register -/

theorem registerLen_of_width {r : Register} (h : r.width = 8) : registerLen r = 1 := by
  rw [registerLen, Register.bytes, h]
  rfl

theorem merge_lt (f : Field) (width old bits : Nat) : merge f width old bits < 2 ^ width :=
  Nat.and_lt_two_pow _ (Nat.sub_one_lt (Nat.two_pow_pos width).ne')

/-- A WRFLD of a one-byte register after its acceptance: the read, the merge and the write (44_register_ops.md R218). -/
theorem runFor_promptWrfld {u : State} {c : Command} {reg fld : BitVec 3} {r : Register} {f : Field} {bits : Nat}
    {s1 s2 s3 s4 d : Byte} {rest : List Byte} (hu : Running u) (hc : u.seqCmd = .val c)
    (hd : decodeCommand c.cmd = .ok (.wrfld reg fld)) (hf : lookupField u.par.masks reg fld = .ok (r, f))
    (hwidth : r.width = 8) (hbits : fieldEncode f r.width c.opv = some bits) (h1 : s1.getLsbD 1 = false)
    (h2 : s2.getLsbD 0 = true) (h3 : s3.getLsbD 1 = false) (h4 : s4.getLsbD 1 = false)
    (hin : u.env.sensorIn = s1 :: s2 :: d :: s3 :: s4 :: rest) :
    runFor (promptEvents s1 r.addr s2 ⟨.read, .readData, d⟩ ++
        promptEvents s3 (writeSelection r.addr) s4 ⟨.write, .writePtr, BitVec.ofNat 8 (merge f 8 d.toNat bits)⟩)
        (startRead r.addr 1 u) =
      .next (finishOk
        { u.after (promptEvents s1 r.addr s2 ⟨.read, .readData, d⟩ ++
            promptEvents s3 (writeSelection r.addr) s4 ⟨.write, .writePtr, BitVec.ofNat 8 (merge f 8 d.toNat bits)⟩)
            rest .idle with
          chAddr := .val r.addr, chN := .val 1, chI := .val 0, chAcc := .val (d.setWidth 192)
          chOut := .val (zext192 (merge f 8 d.toNat bits)), rdata := .val (zext192 (merge f 8 d.toNat bits)) }) := by
  have hlow : r.addr.toNat < 128 := by
    obtain ⟨-, hpos, -, hend, -⟩ := map_registers (lookupRegister_mem (lookupField_register hf).1)
    exact (Nat.lt_add_of_pos_right hpos).trans_le hend
  have hmerge := merge_lt f 8 d.toNat bits
  have hold : (d.setWidth 192).toNat = d.toNat := BitVec.toNat_setWidth_of_le (by decide)
  have hread := ((runFor_promptRead hu hlow h1 h2 hin).trans (readReturn_wrfld hc hd)).trans
    (wrfldMerge_encodes hf hbits)
  rw [registerLen_of_width hwidth, hwidth, hold] at hread
  rw [runFor_append hread]
  refine Eq.trans (runFor_promptWrite ⟨hu.pin, hu.seq⟩ hmerge h3 h4 rfl) (Eq.trans (writeReturn_wrfld hc hd) ?_)
  rw [wrfldReturn, ← after_after (rest := s3 :: s4 :: rest) (st := .idle)]
  rfl

/-- Settles O59: the acceptance, and then `runFor_promptWrfld`. -/
theorem wrfldIssuesEightEvents : Obligations.WrfldIssuesEightEvents := by
  intro s c rest reg fld r f bits s1 s2 s3 s4 d tail hpin haccepts hf hwidth hrw hbits h1 h2 h3 h4 hin
  have hstart : step s = .next (startRead r.addr 1 (dropSnapshotOf reg (acceptCommand c rest s))) := by
    rw [step_of_accepts haccepts, sampleReset_of_quiet hpin, ← registerLen_of_width hwidth]
    exact execWrfld_encodes hf hrw rfl hbits
  rw [dropSnapshotOf_eq] at hstart
  obtain ⟨-, -, -, -, hd⟩ := haccepts
  refine ⟨_, (run_add_of_run ((run_one core s).trans hstart)).trans
    (runFor_promptWrfld ⟨hpin, rfl⟩ rfl hd hf hwidth hbits h1 h2 h3 h4 hin), ?_⟩
  exact ⟨rfl, rfl, rfl, rfl, rfl, rfl, rfl, rfl, rfl, rfl⟩

end Sys2Proof.Machine
end

section
/-! SUPPORT. The statements about WAITRDY, SRESET and NOP (44_register_ops.md R220–R224), and about the operands that no
command encodes (60_exceptions.md R254). A time test is said once, by what the reading of the time input decides
(`waitTick_eq`, `settleTick_eq`). -/

namespace Sys2Proof.Machine

open Sys2Proof.Config (Field Register)

/-! ### NOP and SRESET -/

/-- The word of NOP is 0 (30_encoding.md R91). -/
theorem encode_nop : encode .nop = .command 0 := rfl

/-- Settles O16: the decoder answers NOP on NOP's word alone. -/
theorem nopWritesStatusOnly : Obligations.NopWritesStatusOnly := by
  refine ⟨fun w => ?_, fun _ => rfl⟩
  rw [decodeCommand_ok_iff, encode_nop, Encoded.command.injEq, eq_comm]

/-- Settles O26. -/
theorem sresetStartsRead : Obligations.SresetStartsRead := execSreset_eq

/-! ### WAITRDY and its polls -/

section Waitrdy

variable {s : State} {c : Command}

/-- WAITRDY of a number reads the time and polls (44_register_ops.md R220). -/
theorem execWaitrdy_numeric {x : Ext} (hc : s.seqCmd = .val c) (hx : numericOperand c.opv = some x) :
    execWaitrdy s = .next (startWaitPoll { (now s).2 with seqT0 := .val (now s).1 }) := by
  rw [execWaitrdy, hc, withLatch_val, hx]

theorem execWaitrdy_notNumeric (hc : s.seqCmd = .val c) (hnone : numericOperand c.opv = none) :
    execWaitrdy s = .next (raise (.invalidFieldValue .timeout controlIndex dataReadyIndex c.opv) s) := by
  rw [execWaitrdy, hc, withLatch_val, hnone, raised_eq]

theorem readReturn_waitrdy {v : Raw} (hc : s.seqCmd = .val c) (hd : decodeCommand c.cmd = .ok .waitrdy) :
    readReturn v s = waitrdyPolled v s := by
  rw [readReturn, hc, withLatch_val, hd]

end Waitrdy

/-- Integers and the binary64 values but NaN are numbers (43_adapters.md R174, 44_register_ops.md R220). -/
theorem exists_numericOperand {v : Sem} (h : (∃ n, v = .int n) ∨ ∃ x, v = .f64 x ∧ f64IsNaN x = false) :
    ∃ x, numericOperand v = some x := by
  obtain ⟨n, rfl⟩ | ⟨x, rfl, hx⟩ := h
  · exact ⟨_, rfl⟩
  · exact ⟨f64Ext x, by rw [numericOperand, if_neg (by simp [hx])]⟩

/-- Settles O25: the operand is a number, and the reading is taken. -/
theorem waitrdyStartsFirstPoll : Obligations.WaitrdyStartsFirstPoll := by
  intro s c t rest hc hnumber hin hfinite hle
  obtain ⟨x, hx⟩ := exists_numericOperand hnumber
  refine (execWaitrdy_numeric hc hx).trans ?_
  rw [now_cons hin hfinite hle]
  rfl

/-- data_ready decodes to Int(1) where its bit reads 1 (10_state.md R37). -/
theorem dataReady_decodes_one_iff {m : Config.FieldMasks} {raw : Nat} :
    fieldDecode (dataReadyField m) raw = some (.int 1) ↔ extractField (dataReadyField m) raw = 1 := by
  rw [dataReadyField_decodes, Option.some.injEq, Sem.int.injEq, Nat.cast_eq_one]

/-- Settles O15: the poll's last byte, and then the readiness test of `waitrdyPolled_eq`. -/
theorem waitrdyPollReadsControl : Obligations.WaitrdyPollReadsControl := by
  rintro s c acc d v rfl h
  have ⟨_, _, _, hc, hd⟩ := h
  have hpolled := ((h.exec_eq d).trans (readReturn_waitrdy hc hd)).trans (waitrdyPolled_eq _ _)
  refine ⟨fun hready => ?_, fun hwait => ?_⟩
  · exact hpolled.trans (congrArg _ (if_pos (dataReady_decodes_one_iff.mp hready)))
  · exact hpolled.trans (congrArg _ (if_neg (dataReady_decodes_one_iff.not.mp hwait)))

/-! ### The time tests -/

section TimeTests

variable {s : State} {t0 : F64}

theorem waitTick_eq {c : Command} {limit : Ext} (hc : s.seqCmd = .val c) (ht0 : s.seqT0 = .val t0)
    (hlimit : numericOperand c.opv = some limit) :
    waitTick s =
      .next (if extLt limit (elapsed (now s).1 t0) then finishOk { (now s).2 with rval := .int 0, seqSt := .run }
        else startWaitPoll (now s).2) := by
  rw [waitTick, hc, withLatch_val, ht0, withLatch_val, hlimit, apply_ite Host.Outcome.next]

theorem settleTick_eq (ht0 : s.seqT0 = .val t0) :
    settleTick s =
      .next (if extLe (intExt Config.settleTime) (elapsed (now s).1 t0) then finishOk { (now s).2 with seqSt := .run }
        else (now s).2) := by
  rw [settleTick, ht0, withLatch_val, apply_ite Host.Outcome.next]

theorem step_of_noReset (hr : resetAsserted s = false) : step s = (workAgenda (sampleReset s)).outcome := by
  rw [step_eq_outcome, agenda, hr, if_neg Bool.false_ne_true]

theorem step_of_wait (hr : resetAsserted s = false) (hwait : s.seqSt = .wait) : step s = waitTick (sampleReset s) := by
  rw [step_of_noReset hr, workAgenda, sampleReset_seqSt, hwait]
  rfl

theorem step_of_settle (hr : resetAsserted s = false) (hsettle : s.seqSt = .settle) :
    step s = settleTick (sampleReset s) := by
  rw [step_of_noReset hr, workAgenda, sampleReset_seqSt, hsettle]
  rfl

end TimeTests

/-- Settles O27: each test with the reading that it takes. -/
theorem timeTestsEndWaits : Obligations.TimeTestsEndWaits := by
  intro s c t0 t rest limit hr ht0 hin hfinite hle
  have hnow := now_cons (s := sampleReset s) hin hfinite hle
  refine ⟨fun hwait hc hlimit => ?_, fun hsettle => ?_⟩
  · rw [step_of_wait hr hwait, waitTick_eq (s := sampleReset s) hc ht0 hlimit, hnow]
    rfl
  · rw [step_of_settle hr hsettle, settleTick_eq (s := sampleReset s) ht0, hnow]
    rfl

/-! ### Operands that do not encode -/

/-- Settles O30: each command's fault for an operand that its adapter, or the timeout, does not take. -/
theorem unencodableValueFaults : Obligations.UnencodableValueFaults := by
  intro s c reg fld r f hc
  refine ⟨fun hf hnone i hi => ?_, fun hint hnan => execWaitrdy_notNumeric hc (numericOperand_eq_none hint hnan)⟩
  obtain rfl | rfl | ⟨rfl, hrw⟩ := hi
  · exact execFenc_unencodable hf hc hnone
  · exact execFins_unencodable hf hc hnone
  · exact execWrfld_unencodable hf hrw hc hnone

end Sys2Proof.Machine
end

section
/-! SUPPORT. The statements about accepting a command (60_exceptions.md R251, R252): what a step does with the first
command on the port is `accept`, and `accept` refuses it for the configuration or for its word, or runs it. -/

namespace Sys2Proof.Machine

/-- An idle VRM with a command on its port accepts it (60_exceptions.md R252). -/
theorem step_of_offered {s : State} {c : Command} {rest : List Command} (hr : resetAsserted s = false)
    (hidle : s.seqSt = .idle) (hport : s.env.port = c :: rest) :
    step s = (accept c rest (sampleReset s)).outcome := by
  rw [step_of_noReset hr, workAgenda, sampleReset_seqSt, hidle]
  change (idleAgenda _).outcome = _
  rw [idleAgenda, sampleReset_env, hport]

/-- Settles O5: `step_of_accepts`, with the accepting state written out. -/
theorem stepRunsAcceptedCommand : Obligations.StepRunsAcceptedCommand := by
  intro s c rest i haccepts
  exact step_of_accepts haccepts

theorem accept_maskOverflow {s : State} {reg fld : BitVec 3} (c : Command) (rest : List Command)
    (hcfg : s.cfgOk = false) (hcheck : configCheck s.par.masks = some (reg, fld)) :
    accept c rest s = .settled (.next (raise (.maskOverflow reg fld) (acceptCommand c rest s))) := by
  rw [accept, hcfg, if_neg Bool.false_ne_true, hcheck]
  rfl

theorem accept_illegalCommand {s : State} {c : Command} {e : DecodeReject} (rest : List Command) (hcfg : s.cfgOk = true)
    (hdecode : decodeCommand c.cmd = .error e) :
    accept c rest s = .settled (.next (raise (.illegalCommand c.cmd) (acceptCommand c rest s))) := by
  rw [accept, if_pos hcfg, hdecode, raised_eq]

/-- The decoder rejects a word that meets no row of the table (30_encoding.md R92). -/
theorem decodeCommand_error_of_no_row {w : CmdWord} (hrows : ∀ row ∈ commandRows, w &&& row.2 ≠ row.1) :
    ∃ e, decodeCommand w = .error e := by
  cases hdecode : decodeCommand w with
  | error e => exact ⟨e, rfl⟩
  | ok i =>
    obtain ⟨row, hmem, hmeets⟩ := (commandTableDecides w).1.mp ⟨i, hdecode⟩
    exact absurd hmeets (hrows row hmem)

/-- Settles O31: the configuration is tested first and the word after it; either fault is the raise in the state that
has taken the command. -/
theorem acceptanceFaults : Obligations.AcceptanceFaults := by
  intro s c rest hr hidle hport
  refine ⟨fun reg fld hcfg hcheck => ?_, fun hcfg hrows => ?_⟩
  · rw [step_of_offered hr hidle hport, accept_maskOverflow (s := sampleReset s) c rest hcfg hcheck]
    rfl
  · obtain ⟨e, hdecode⟩ := decodeCommand_error_of_no_row hrows
    rw [step_of_offered hr hidle hport, accept_illegalCommand (s := sampleReset s) rest hcfg hdecode]
    rfl

end Sys2Proof.Machine
end

section
/-! SUPPORT. The statements about the configuration check of MAP (70_reset_and_hazards.md R281, R282): the test of one
mask (`maskPasses_iff`) is `fieldPasses` of its field (`maskPasses_eq_true_iff_fieldPasses`), the two searches end at a
first failure or show that there is none (`firstBadField_cases`, `firstBadRegister_cases`), and there is at most one
first failure (`FirstFailure.unique`). -/

namespace Sys2Proof.Machine

open Sys2Proof.Config (Field Register FieldMasks)

/-! ### One run of ones -/

theorem two_pow_tz_dvd (m : Nat) : 2 ^ tz m ∣ m := by
  rw [tz]
  cases hfind : (List.range (m.log2 + 1)).find? fun i => m.testBit i with
  | none => exact Nat.one_dvd m
  | some t =>
    obtain ⟨-, -, hbelow⟩ := List.find?_range_eq_some.mp hfind
    refine Nat.dvd_of_mod_eq_zero (Nat.eq_of_testBit_eq fun k => ?_)
    rw [Option.getD_some, Nat.testBit_mod_two_pow, Nat.zero_testBit, Bool.and_eq_false_imp]
    intro hk
    simpa using hbelow k (of_decide_eq_true hk)

theorem and_add_one_eq_zero_iff {n : Nat} : n &&& (n + 1) = 0 ↔ ∃ w, n = 2 ^ w - 1 := by
  rw [Nat.and_comm]
  refine (Nat.and_sub_one_eq_zero_iff_isPowerOfTwo n.succ_ne_zero).trans (exists_congr fun w => ?_)
  have := Nat.two_pow_pos w
  omega

/-- The shifted test of the check (70_reset_and_hazards.md R281) finds exactly the runs of ones. -/
theorem contiguous_iff {m : Nat} : contiguous m = true ↔ ∃ t w, m = (2 ^ w - 1) * 2 ^ t := by
  rw [contiguous, decide_eq_true_iff, and_add_one_eq_zero_iff, Nat.shiftRight_eq_div_pow]
  constructor
  · rintro ⟨w, hw⟩
    exact ⟨tz m, w, by rw [← hw, Nat.div_mul_cancel (two_pow_tz_dvd m)]⟩
  · rintro ⟨t, w, rfl⟩
    obtain rfl | hw := Nat.eq_zero_or_pos w
    · exact ⟨0, by simp⟩
    · exact ⟨w, by rw [tz_runMask hw, Nat.mul_div_cancel _ (Nat.two_pow_pos t)]⟩

/-! ### The fields of one register -/

/-- The check's test of the next field, after the fields `before` it. -/
theorem maskPasses_eq_true_iff_fieldPasses {r : Register} {before later : List Field} {f : Field}
    (h : r.fields = before ++ f :: later) :
    maskPasses r.width (before.map (·.mask)).reverse f.mask = true ↔ fieldPasses r before.length := by
  have hearlier : (∀ g ∈ (before.map (·.mask)).reverse, f.mask &&& g = 0) ↔
      ∀ j g, j < before.length → r.fields[j]? = some g → f.mask &&& g.mask = 0 := by
    simp only [List.mem_reverse, List.forall_mem_map]
    constructor
    · intro hall j g hj hg
      rw [h, List.getElem?_append_left hj] at hg
      exact hall g (List.mem_of_getElem? hg)
    · intro hall g hg
      obtain ⟨j, hj, rfl⟩ := List.getElem_of_mem hg
      exact hall j _ hj (by rw [h, List.getElem?_append_left hj, List.getElem?_eq_getElem hj])
  have hthis : r.fields[before.length]? = some f := by simp [h]
  rw [maskPasses_iff, contiguous_iff, hearlier, fieldPasses, hthis]
  simp

theorem fieldPasses_of_length_le {r : Register} {k : Nat} (h : r.fields.length ≤ k) : fieldPasses r k := by
  intro f hf
  rw [List.getElem?_eq_none h] at hf
  cases hf

/-- Field `k` of the register is its first failure. -/
def FirstBadField (r : Register) (k : Nat) : Prop :=
  k < r.fields.length ∧ ¬fieldPasses r k ∧ ∀ j < k, fieldPasses r j

/-- The search goes on from fields that passed: it ends at the first failure, or there is none. -/
theorem firstBadField_cases {r : Register} {before later : List Field} (h : r.fields = before ++ later)
    (hbefore : ∀ k < before.length, fieldPasses r k) :
    (firstBadField r.width (before.map (·.mask)).reverse before.length later = none ∧ ∀ k, fieldPasses r k) ∨
      ∃ k, firstBadField r.width (before.map (·.mask)).reverse before.length later = some k ∧ FirstBadField r k := by
  induction later generalizing before with
  | nil =>
    refine .inl ⟨rfl, fun k => ?_⟩
    obtain hk | hk := Nat.lt_or_ge k before.length
    · exact hbefore k hk
    · exact fieldPasses_of_length_le (by simpa [h] using hk)
  | cons f later ih =>
    rw [firstBadField]
    split
    next hpass =>
      rw [maskPasses_eq_true_iff_fieldPasses h] at hpass
      have hthrough : ∀ k < (before ++ [f]).length, fieldPasses r k := by
        intro k hk
        obtain hk | rfl := Nat.lt_succ_iff_lt_or_eq.mp (List.length_append ▸ hk)
        · exact hbefore k hk
        · exact hpass
      simpa using ih (before := before ++ [f]) (by simp [h]) hthrough
    next hfail =>
      rw [maskPasses_eq_true_iff_fieldPasses h] at hfail
      exact .inr ⟨before.length, rfl, by simp [h], hfail, hbefore⟩

theorem firstBadField_fields_cases (r : Register) :
    (firstBadField r.width [] 0 r.fields = none ∧ ∀ k, fieldPasses r k) ∨
      ∃ k, firstBadField r.width [] 0 r.fields = some k ∧ FirstBadField r k :=
  firstBadField_cases (before := []) rfl nofun

/-- In a register where every field passes, R281's tests against the fields before are tests against all others. -/
theorem forall_fieldPasses_iff {r : Register} :
    (∀ k, fieldPasses r k) ↔
      (∀ f ∈ r.fields, f.mask ≠ 0 ∧ f.mask < 2 ^ r.width ∧ ∃ t w, f.mask = (2 ^ w - 1) * 2 ^ t) ∧
        r.fields.Pairwise fun f g => f.mask &&& g.mask = 0 := by
  constructor
  · intro h
    refine ⟨fun f hf => ?_, List.pairwise_iff_getElem.mpr fun i j hi hj hij => ?_⟩
    · obtain ⟨k, hk⟩ := List.mem_iff_getElem?.mp hf
      obtain ⟨hne, hlt, -, hrun⟩ := h k f hk
      exact ⟨hne, hlt, hrun⟩
    · obtain ⟨-, -, hearlier, -⟩ := h j _ (List.getElem?_eq_getElem hj)
      exact (Nat.and_comm _ _).trans (hearlier i _ hij (List.getElem?_eq_getElem hi))
  · rintro ⟨hmasks, hpair⟩ k f hf
    obtain ⟨hne, hlt, hrun⟩ := hmasks f (List.mem_of_getElem? hf)
    exact ⟨hne, hlt, fun j g hj hg => masks_disjoint hpair hf hg hj.ne', hrun⟩

/-! ### The registers of MAP -/

/-- Field `k` of register `i` is the first failure: every earlier field of its register and every field of an earlier
register passes (70_reset_and_hazards.md R281). -/
def FirstFailure (rs : List Register) (i k : Nat) : Prop :=
  ∃ r, rs[i]? = some r ∧ k < r.fields.length ∧ ¬fieldPasses r k ∧ (∀ j < k, fieldPasses r j) ∧
    ∀ i' < i, ∀ r', rs[i']? = some r' → ∀ k, fieldPasses r' k

theorem FirstFailure.head {r : Register} {rs : List Register} {k : Nat} (h : FirstBadField r k) :
    FirstFailure (r :: rs) 0 k := by
  obtain ⟨hlt, hfail, hbefore⟩ := h
  exact ⟨r, rfl, hlt, hfail, hbefore, nofun⟩

theorem FirstFailure.tail {r : Register} {rs : List Register} {i k : Nat} (hr : ∀ k, fieldPasses r k)
    (h : FirstFailure rs i k) : FirstFailure (r :: rs) (i + 1) k := by
  obtain ⟨bad, hbad, hlt, hfail, hfields, hregs⟩ := h
  refine ⟨bad, hbad, hlt, hfail, hfields, fun i' hi' r' hr' => ?_⟩
  cases i' with
  | zero => cases hr'; exact hr
  | succ i' => exact hregs i' (Nat.lt_of_succ_lt_succ hi') r' hr'

theorem FirstFailure.not_all_pass {rs : List Register} {i k : Nat} (h : FirstFailure rs i k) :
    ¬∀ r ∈ rs, ∀ k, fieldPasses r k := by
  obtain ⟨r, hr, -, hfail, -⟩ := h
  exact fun hall => hfail (hall r (List.mem_of_getElem? hr) k)

theorem FirstFailure.register_le {rs : List Register} {i i' k k' : Nat} (h : FirstFailure rs i k)
    (h' : FirstFailure rs i' k') : i ≤ i' := by
  obtain ⟨-, -, -, -, -, hregs⟩ := h
  obtain ⟨r', hr', -, hfail', -⟩ := h'
  exact Nat.le_of_not_lt fun hlt => hfail' (hregs i' hlt r' hr' k')

theorem FirstFailure.field_le {rs : List Register} {i k k' : Nat} (h : FirstFailure rs i k)
    (h' : FirstFailure rs i k') : k ≤ k' := by
  obtain ⟨r, hr, -, -, hfields, -⟩ := h
  obtain ⟨r', hr', -, hfail', -⟩ := h'
  obtain rfl : r = r' := Option.some.inj (hr.symm.trans hr')
  exact Nat.le_of_not_lt fun hlt => hfail' (hfields k' hlt)

theorem FirstFailure.unique {rs : List Register} {i i' k k' : Nat} (h : FirstFailure rs i k)
    (h' : FirstFailure rs i' k') : i = i' ∧ k = k' := by
  obtain rfl : i = i' := Nat.le_antisymm (h.register_le h') (h'.register_le h)
  exact ⟨rfl, Nat.le_antisymm (h.field_le h') (h'.field_le h)⟩

/-- The search over the registers ends at the first failure, or there is none; `n` is the index of the first one. -/
theorem firstBadRegister_cases (n : Nat) (rs : List Register) :
    (firstBadRegister n rs = none ∧ ∀ r ∈ rs, ∀ k, fieldPasses r k) ∨
      ∃ i k, firstBadRegister n rs = some (n + i, k) ∧ FirstFailure rs i k := by
  induction rs generalizing n with
  | nil => exact .inl ⟨rfl, nofun⟩
  | cons r rs ih =>
    rw [firstBadRegister]
    obtain ⟨hfields, hpass⟩ | ⟨k, hfields, hbad⟩ := firstBadField_fields_cases r <;> rw [hfields]
    · obtain ⟨hregs, hall⟩ | ⟨i, k, hregs, hfirst⟩ := ih (n + 1)
      · exact .inl ⟨hregs, List.forall_mem_cons.mpr ⟨hpass, hall⟩⟩
      · exact .inr ⟨i + 1, k, Nat.succ_add_eq_add_succ n i ▸ hregs, hfirst.tail hpass⟩
    · exact .inr ⟨0, k, rfl, .head hbad⟩

/-- A failure in MAP has register and field indices of three bits. -/
theorem FirstFailure.lt_of_map {m : FieldMasks} {i k : Nat} (h : FirstFailure (Config.map m) i k) : i < 8 ∧ k < 8 := by
  obtain ⟨r, hr, hk, -⟩ := h
  obtain ⟨hi, -⟩ := List.getElem?_eq_some_iff.mp hr
  have hcount : r.fields.length ∈ Config.fieldCounts :=
    fieldCounts_eq m ▸ List.mem_map_of_mem (List.mem_of_getElem? hr)
  have hle : ∀ n ∈ Config.fieldCounts, n ≤ 6 := by decide
  have hregs : i < 7 := hi
  exact ⟨by omega, by have := hle _ hcount; omega⟩

theorem configCheck_cases (m : FieldMasks) :
    (configCheck m = none ∧ ∀ r ∈ Config.map m, ∀ k, fieldPasses r k) ∨
      ∃ reg fld : BitVec 3, configCheck m = some (reg, fld) ∧ FirstFailure (Config.map m) reg.toNat fld.toNat := by
  rw [configCheck]
  obtain ⟨hnone, hall⟩ | ⟨i, k, hsome, hfirst⟩ := firstBadRegister_cases 0 (Config.map m)
  · exact .inl ⟨by rw [hnone, Option.map_none], hall⟩
  · obtain ⟨hi, hk⟩ := hfirst.lt_of_map
    refine .inr ⟨BitVec.ofNat 3 i, BitVec.ofNat 3 k, by rw [hsome, Option.map_some, Nat.zero_add], ?_⟩
    rwa [BitVec.toNat_ofNat, BitVec.toNat_ofNat, Nat.mod_eq_of_lt hi, Nat.mod_eq_of_lt hk]

theorem configCheck_eq_none_iff {m : FieldMasks} :
    configCheck m = none ↔ ∀ r ∈ Config.map m, ∀ k, fieldPasses r k := by
  obtain ⟨hnone, hall⟩ | ⟨reg, fld, hsome, hfirst⟩ := configCheck_cases m
  · exact iff_of_true hnone hall
  · exact iff_of_false (by simp [hsome]) hfirst.not_all_pass

theorem configCheck_eq_some_iff {m : FieldMasks} {reg fld : BitVec 3} :
    configCheck m = some (reg, fld) ↔ FirstFailure (Config.map m) reg.toNat fld.toNat := by
  obtain ⟨hnone, hall⟩ | ⟨reg', fld', hsome, hfirst⟩ := configCheck_cases m
  · exact iff_of_false (by simp [hnone]) fun h => h.not_all_pass hall
  · constructor
    · intro h
      cases hsome.symm.trans h
      exact hfirst
    · intro h
      obtain ⟨hreg, hfld⟩ := hfirst.unique h
      rw [hsome, BitVec.eq_of_toNat_eq hreg, BitVec.eq_of_toNat_eq hfld]

/-- Settles O35: the check is a search for the first failure, which is unique; without one every field passes. -/
theorem configCheckDecidesMasks : Obligations.ConfigCheckDecidesMasks := by
  intro m
  exact ⟨configCheck_eq_none_iff.trans (forall₂_congr fun _ _ => forall_fieldPasses_iff),
    fun _ _ => configCheck_eq_some_iff⟩

/-! ### The default masks -/

/-- Settles O34: a reset writes the check's result into CFG_OK, and the check of the default masks is one computation. -/
theorem defaultMasksPassCheck : Obligations.DefaultMasksPassCheck := by
  have hdefault : configCheck {} = none := by decide
  have hreset (s : State) (hmasks : s.par.masks = {}) : (vrmReset s).cfgOk = true := by
    rw [vrmReset_cfgOk, hmasks, hdefault, Option.isNone_none]
  refine ⟨hdefault, hreset State.reset rfl, fun s => ⟨hreset s, fun hfail hmasks => ?_⟩⟩
  exact Bool.false_ne_true (hfail.symm.trans (hreset s hmasks))

end Sys2Proof.Machine
end
